-- ==== Sys2Proof/Word.lean ====
section
/-! DEFINITION. The word types of the DLPC350 HID framer (00_scope.md rule R8).

Every value of the spec is unsigned. Bit 0 is the least significant bit, and byte 0 of a byte string is the
first byte on the wire. -/

namespace Sys2Proof

/-- One byte of the wire, of a request or of a response. -/
abbrev Byte := BitVec 8

/-- A 16-bit field: a payload length, a command code, a store index. -/
abbrev Half := BitVec 16

/-- The 24-bit container of a packed pattern word, three bytes on the wire (R59). -/
abbrev Word24 := BitVec 24

/-- The 20 significant bits of a packed pattern word, as the stores hold them (R23, R26, R59). -/
abbrev PatternWord := BitVec 20

/-- A 32-bit field: exposure and period in microseconds (R25). -/
abbrev Word32 := BitVec 32

end Sys2Proof
end

