-- ==== Sys2Proof/Syntax.lean ====
section
/-! DEFINITION. The operations of the request port: one constructor of `Instr` for each row of
spec/opcode_table.json (30_encoding.md rule R75), with the operands its format gives it (R61 to R73). -/

namespace Sys2Proof

/-- The operand of format F_MSG (R62): one message envelope as the request carries it.
The length field `L` is the length of `payload` (R62: `len(payload) = L`), so it is not held twice.
`flags` is the raw flag byte; the machine decodes it under its flag layout (R53). -/
structure Envelope where
  flags : Byte
  seq : Byte
  payload : List Byte
deriving DecidableEq, Repr

/-- The operand of format F_PATTERN (R70), and the pattern descriptor of R93: eight fields, each in a full byte. -/
structure Pattern where
  triggerType : Byte
  patternIndex : Byte
  bitDepth : Byte
  ledSelect : Byte
  invertPattern : Byte
  insertBlack : Byte
  bufferSwap : Byte
  triggerOutPrevious : Byte
deriving DecidableEq, Repr

/-- One request of the operation map (R75). -/
inductive Instr where
  -- message framer (40_framer.md)
  | msgWrite (m : Envelope)
  | msgRead
  | msgTransact (m : Envelope)
  -- register GET (42_codec.md)
  | getPowerMode
  | getLedEnable
  | getLedCurrent
  | getInputSource
  | getTestPattern
  | getDisplayMode
  | getGamma
  | getPatTriggerMode
  | getPatDataSource
  | getPatSeqStatus
  | getPatPeriod
  | getPatConfig
  | getMboxMode
  | getMboxOffset
  | getValidate
  | getVersion
  | getFirmwareTag
  | getHwStatus
  | getSysStatus
  | getMainStatus
  -- register SET (42_codec.md)
  | setPowerMode (v : Byte)
  | setLedEnable (red green blue seqCtrl : Byte)
  | setLedCurrent (red green blue : Byte)
  | setInputSource (source portWidth : Byte)
  | setTestPattern (v : Byte)
  | setDisplayMode (v : Byte)
  | setGamma (table enable : Byte)
  | setPatTriggerMode (v : Byte)
  | setPatDataSource (v : Byte)
  | setPatSeqStatus (v : Byte)
  | setPatPeriod (exposure period : Word32)
  | setPatConfig (numLutEntriesM1 rpt numPatsTrigOut2M1 numImagesM1 : Byte)
  | setMboxMode (v : Byte)
  | setMboxOffset (v : Byte)
  | setValidate
  -- pattern sequence store (41_pattern.md) and mailbox sequencer (43_mailbox.md)
  | seqClear
  | seqAdd (p : Pattern)
  | seqSetTiming (exposure period : Word32)
  | seqRead (index : Half)
  | seqStatus
  | lutUpload
  -- variable-exposure store (41_pattern.md)
  | vxClear
  | vxAdd (p : Pattern) (exposure period : Word32)
  | vxRead (index : Half)
  | vxStatus
  -- pattern packer (41_pattern.md)
  | patPack (p : Pattern)
  | patUnpack (word : Word24)
deriving DecidableEq, Repr

end Sys2Proof
end

