-- ==== Sys2Proof/WellFormed.lean ====
section
/-! DEFINITION. Which terms of `Instr` a request can carry. The types of the operands hold every width of
R61 to R73 but one: the payload of a message envelope, whose length field has 16 bits (R54, R62). -/

namespace Sys2Proof

/-- The payload length of an envelope fits the 16-bit length field (R54, R62). A length above 512 is still
a request: the operation refuses it (R83), not the encoding. -/
def Envelope.wellFormed (m : Envelope) : Bool :=
  decide (m.payload.length < 65536)

/-- An instruction some request encodes. -/
def Instr.wellFormed : Instr → Bool
  | .msgWrite m => m.wellFormed
  | .msgTransact m => m.wellFormed
  | .msgRead | .getPowerMode | .getLedEnable | .getLedCurrent | .getInputSource | .getTestPattern
  | .getDisplayMode | .getGamma | .getPatTriggerMode | .getPatDataSource | .getPatSeqStatus
  | .getPatPeriod | .getPatConfig | .getMboxMode | .getMboxOffset | .getValidate | .getVersion
  | .getFirmwareTag | .getHwStatus | .getSysStatus | .getMainStatus => true
  | .setPowerMode _ | .setLedEnable _ _ _ _ | .setLedCurrent _ _ _ | .setInputSource _ _
  | .setTestPattern _ | .setDisplayMode _ | .setGamma _ _ | .setPatTriggerMode _
  | .setPatDataSource _ | .setPatSeqStatus _ | .setPatPeriod _ _ | .setPatConfig _ _ _ _
  | .setMboxMode _ | .setMboxOffset _ | .setValidate => true
  | .seqClear | .seqAdd _ | .seqSetTiming _ _ | .seqRead _ | .seqStatus | .lutUpload => true
  | .vxClear | .vxAdd _ _ _ | .vxRead _ | .vxStatus => true
  | .patPack _ | .patUnpack _ => true

end Sys2Proof
end

