-- ==== Sys2Proof/Decode.lean ====
section
/-! DEFINITION. From the bytes of a request to an instruction, and back (30_encoding.md section 2).

First the little-endian helpers of R9, then the operation map and the operand formats (R61 to R73, R75), then the
decoder, total on any byte string and rejecting by name (R76, R77, R183), then the encoder, then the numbering the host
asks with. -/

namespace Sys2Proof

/-! ### Little-endian helpers (R9) -/

/-- `LE(8·n)(v)`: the `n` low bytes of `v`, least significant first. `LE16`, `LE24` and `LE32` are `n = 2, 3, 4`. -/
def leBytes : Nat → Nat → List Byte
  | 0, _ => []
  | n + 1, v => BitVec.ofNat 8 v :: leBytes n (v / 256)

/-- The number a byte string stands for, least significant byte first. -/
def leNat : List Byte → Nat
  | [] => 0
  | b :: bs => b.toNat + 256 * leNat bs

/-- `LE16(v)`. -/
def le16 (v : Nat) : List Byte := leBytes 2 v
/-- `LE24(v)`. -/
def le24 (v : Nat) : List Byte := leBytes 3 v
/-- `LE32(v)`. -/
def le32 (v : Nat) : List Byte := leBytes 4 v

/-- `U16(s, i)`. -/
def u16 (s : List Byte) (i : Nat) : Nat := leNat ((s.drop i).take 2)
/-- `U24(s, i)`. -/
def u24 (s : List Byte) (i : Nat) : Nat := leNat ((s.drop i).take 3)
/-- `U32(s, i)`. -/
def u32 (s : List Byte) (i : Nat) : Nat := leNat ((s.drop i).take 4)

/-! ### Operand formats (R61 to R73) and the operation map (R75) -/

/-- The operand formats. -/
inductive Format where
  | none | msg | reg8 | leden | insrc | gamma | ledcur | period | patcfg | pattern | vx | index | word3
deriving DecidableEq, Repr

/-- The operand bytes of a format after the op byte; `none` for F_MSG, whose length the request itself gives (R76). -/
def Format.operandLength : Format → Option Nat
  | .none => some 0
  | .msg => Option.none
  | .reg8 => some 1
  | .leden => some 4
  | .insrc => some 2
  | .gamma => some 2
  | .ledcur => some 3
  | .period => some 8
  | .patcfg => some 4
  | .pattern => some 8
  | .vx => some 16
  | .index => some 2
  | .word3 => some 3

/-- The operand format an op value has; `none` for the undefined op values of R77. -/
def formatOf (op : Byte) : Option Format :=
  match op.toNat with
  | 0x01 => some .msg | 0x02 => some .none | 0x03 => some .msg
  | 0x40 => some .none | 0x41 => some .none | 0x42 => some .none | 0x43 => some .none
  | 0x44 => some .none | 0x45 => some .none | 0x46 => some .none | 0x47 => some .none
  | 0x48 => some .none | 0x49 => some .none | 0x4A => some .none | 0x4B => some .none
  | 0x4C => some .none | 0x4D => some .none | 0x4F => some .none | 0x50 => some .none
  | 0x51 => some .none | 0x52 => some .none | 0x53 => some .none | 0x54 => some .none
  | 0x80 => some .reg8 | 0x81 => some .leden | 0x82 => some .ledcur | 0x83 => some .insrc
  | 0x84 => some .reg8 | 0x85 => some .reg8 | 0x86 => some .gamma | 0x87 => some .reg8
  | 0x88 => some .reg8 | 0x89 => some .reg8 | 0x8A => some .period | 0x8B => some .patcfg
  | 0x8C => some .reg8 | 0x8D => some .reg8 | 0x8F => some .none
  | 0xC0 => some .none | 0xC1 => some .pattern | 0xC2 => some .period | 0xC3 => some .index
  | 0xC4 => some .none | 0xC5 => some .none
  | 0xC8 => some .none | 0xC9 => some .vx | 0xCA => some .index | 0xCB => some .none
  | 0xD0 => some .pattern | 0xD1 => some .word3
  | _ => none

/-! ### The decoder -/

/-- Why the request decoder refuses a request (R183). -/
inductive DecodeError where
  /-- The op value is undefined (R77): `ILLEGAL_REQUEST(IR_OPCODE)`. -/
  | opcode
  /-- The request's length is not the one its format requires (R76): `ILLEGAL_REQUEST(IR_LENGTH)`. -/
  | length
deriving DecidableEq, Repr

/-- F_NONE (R61): no operand bytes. -/
def readNone (i : Instr) : List Byte → Except DecodeError Instr
  | [] => .ok i
  | _ => .error .length

/-- F_REG8 (R63): one byte. -/
def readReg8 (k : Byte → Instr) : List Byte → Except DecodeError Instr
  | [v] => .ok (k v)
  | _ => .error .length

/-- F_INSRC, F_GAMMA (R65, R66): two bytes. -/
def readTwo (k : Byte → Byte → Instr) : List Byte → Except DecodeError Instr
  | [a, b] => .ok (k a b)
  | _ => .error .length

/-- F_LEDCUR (R67): three bytes. -/
def readThree (k : Byte → Byte → Byte → Instr) : List Byte → Except DecodeError Instr
  | [a, b, c] => .ok (k a b c)
  | _ => .error .length

/-- F_LEDEN, F_PATCFG (R64, R69): four bytes. -/
def readFour (k : Byte → Byte → Byte → Byte → Instr) : List Byte → Except DecodeError Instr
  | [a, b, c, d] => .ok (k a b c d)
  | _ => .error .length

/-- F_MSG (R62): a message envelope whose payload has the length its header gives. -/
def readMsg (k : Envelope → Instr) : List Byte → Except DecodeError Instr
  | flags :: seq :: l0 :: l1 :: payload =>
    if payload.length = u16 [l0, l1] 0 then .ok (k ⟨flags, seq, payload⟩) else .error .length
  | _ => .error .length

/-- F_PERIOD (R68): `LE32(exposure) ++ LE32(period)`. -/
def readPeriod (k : Word32 → Word32 → Instr) (bs : List Byte) : Except DecodeError Instr :=
  if bs.length = 8 then .ok (k (BitVec.ofNat 32 (u32 bs 0)) (BitVec.ofNat 32 (u32 bs 4))) else .error .length

/-- F_PATTERN (R70): eight field bytes, in declaration order. -/
def readPattern (k : Pattern → Instr) : List Byte → Except DecodeError Instr
  | [t, i, d, l, inv, blk, sw, top] => .ok (k ⟨t, i, d, l, inv, blk, sw, top⟩)
  | _ => .error .length

/-- F_VX (R71): the F_PATTERN operand, then `LE32(exposure) ++ LE32(period)`. -/
def readVx (k : Pattern → Word32 → Word32 → Instr) : List Byte → Except DecodeError Instr
  | t :: i :: d :: l :: inv :: blk :: sw :: top :: bs => readPeriod (k ⟨t, i, d, l, inv, blk, sw, top⟩) bs
  | _ => .error .length

/-- F_INDEX (R72): `LE16(index)`. -/
def readIndex (k : Half → Instr) (bs : List Byte) : Except DecodeError Instr :=
  if bs.length = 2 then .ok (k (BitVec.ofNat 16 (u16 bs 0))) else .error .length

/-- F_WORD3 (R73): `LE24(word)`. -/
def readWord3 (k : Word24 → Instr) (bs : List Byte) : Except DecodeError Instr :=
  if bs.length = 3 then .ok (k (BitVec.ofNat 24 (u24 bs 0))) else .error .length

/-- The request decoder (R76, R77, R183): the op is checked before the length, and an empty request is a length error. -/
def decode : List Byte → Except DecodeError Instr
  | [] => .error .length
  | op :: bs =>
    match op.toNat with
    | 0x01 => readMsg .msgWrite bs
    | 0x02 => readNone .msgRead bs
    | 0x03 => readMsg .msgTransact bs
    | 0x40 => readNone .getPowerMode bs
    | 0x41 => readNone .getLedEnable bs
    | 0x42 => readNone .getLedCurrent bs
    | 0x43 => readNone .getInputSource bs
    | 0x44 => readNone .getTestPattern bs
    | 0x45 => readNone .getDisplayMode bs
    | 0x46 => readNone .getGamma bs
    | 0x47 => readNone .getPatTriggerMode bs
    | 0x48 => readNone .getPatDataSource bs
    | 0x49 => readNone .getPatSeqStatus bs
    | 0x4A => readNone .getPatPeriod bs
    | 0x4B => readNone .getPatConfig bs
    | 0x4C => readNone .getMboxMode bs
    | 0x4D => readNone .getMboxOffset bs
    | 0x4F => readNone .getValidate bs
    | 0x50 => readNone .getVersion bs
    | 0x51 => readNone .getFirmwareTag bs
    | 0x52 => readNone .getHwStatus bs
    | 0x53 => readNone .getSysStatus bs
    | 0x54 => readNone .getMainStatus bs
    | 0x80 => readReg8 .setPowerMode bs
    | 0x81 => readFour .setLedEnable bs
    | 0x82 => readThree .setLedCurrent bs
    | 0x83 => readTwo .setInputSource bs
    | 0x84 => readReg8 .setTestPattern bs
    | 0x85 => readReg8 .setDisplayMode bs
    | 0x86 => readTwo .setGamma bs
    | 0x87 => readReg8 .setPatTriggerMode bs
    | 0x88 => readReg8 .setPatDataSource bs
    | 0x89 => readReg8 .setPatSeqStatus bs
    | 0x8A => readPeriod .setPatPeriod bs
    | 0x8B => readFour .setPatConfig bs
    | 0x8C => readReg8 .setMboxMode bs
    | 0x8D => readReg8 .setMboxOffset bs
    | 0x8F => readNone .setValidate bs
    | 0xC0 => readNone .seqClear bs
    | 0xC1 => readPattern .seqAdd bs
    | 0xC2 => readPeriod .seqSetTiming bs
    | 0xC3 => readIndex .seqRead bs
    | 0xC4 => readNone .seqStatus bs
    | 0xC5 => readNone .lutUpload bs
    | 0xC8 => readNone .vxClear bs
    | 0xC9 => readVx .vxAdd bs
    | 0xCA => readIndex .vxRead bs
    | 0xCB => readNone .vxStatus bs
    | 0xD0 => readPattern .patPack bs
    | 0xD1 => readWord3 .patUnpack bs
    | _ => .error .opcode

/-! ### The encoder -/

/-- The F_MSG operand of an envelope (R62): its header, then its payload. -/
def Envelope.bytes (m : Envelope) : List Byte := m.flags :: m.seq :: (le16 m.payload.length ++ m.payload)

/-- The F_PATTERN operand of a descriptor (R70). -/
def Pattern.bytes (p : Pattern) : List Byte :=
  [p.triggerType, p.patternIndex, p.bitDepth, p.ledSelect,
   p.invertPattern, p.insertBlack, p.bufferSwap, p.triggerOutPrevious]

/-- The F_PERIOD operand (R68). -/
def periodBytes (exposure period : Word32) : List Byte := le32 exposure.toNat ++ le32 period.toNat

/-- The request of an instruction (R60): its op byte (R75), then its operands. -/
def encode : Instr → List Byte
  | .msgWrite m => 0x01 :: m.bytes
  | .msgRead => [0x02]
  | .msgTransact m => 0x03 :: m.bytes
  | .getPowerMode => [0x40]
  | .getLedEnable => [0x41]
  | .getLedCurrent => [0x42]
  | .getInputSource => [0x43]
  | .getTestPattern => [0x44]
  | .getDisplayMode => [0x45]
  | .getGamma => [0x46]
  | .getPatTriggerMode => [0x47]
  | .getPatDataSource => [0x48]
  | .getPatSeqStatus => [0x49]
  | .getPatPeriod => [0x4A]
  | .getPatConfig => [0x4B]
  | .getMboxMode => [0x4C]
  | .getMboxOffset => [0x4D]
  | .getValidate => [0x4F]
  | .getVersion => [0x50]
  | .getFirmwareTag => [0x51]
  | .getHwStatus => [0x52]
  | .getSysStatus => [0x53]
  | .getMainStatus => [0x54]
  | .setPowerMode v => [0x80, v]
  | .setLedEnable r g b q => [0x81, r, g, b, q]
  | .setLedCurrent r g b => [0x82, r, g, b]
  | .setInputSource a w => [0x83, a, w]
  | .setTestPattern v => [0x84, v]
  | .setDisplayMode v => [0x85, v]
  | .setGamma t e => [0x86, t, e]
  | .setPatTriggerMode v => [0x87, v]
  | .setPatDataSource v => [0x88, v]
  | .setPatSeqStatus v => [0x89, v]
  | .setPatPeriod e p => 0x8A :: periodBytes e p
  | .setPatConfig n r t m => [0x8B, n, r, t, m]
  | .setMboxMode v => [0x8C, v]
  | .setMboxOffset v => [0x8D, v]
  | .setValidate => [0x8F]
  | .seqClear => [0xC0]
  | .seqAdd p => 0xC1 :: p.bytes
  | .seqSetTiming e p => 0xC2 :: periodBytes e p
  | .seqRead i => 0xC3 :: le16 i.toNat
  | .seqStatus => [0xC4]
  | .lutUpload => [0xC5]
  | .vxClear => [0xC8]
  | .vxAdd p e q => 0xC9 :: (p.bytes ++ periodBytes e q)
  | .vxRead i => 0xCA :: le16 i.toNat
  | .vxStatus => [0xCB]
  | .patPack p => 0xD0 :: p.bytes
  | .patUnpack w => 0xD1 :: le24 w.toNat

/-! ### The host's numbering of an instruction's bits -/

/-- The length of the request an op value and the bytes after it require (R76): one byte for the op, then the operand
length of its format; `5 + U16(request, 3)` for F_MSG. An undefined op is taken as one byte. -/
def requestLength (bs : List Byte) : Nat :=
  match formatOf (bs.headD 0) with
  | none => 1
  | some f =>
    match f.operandLength with
    | some n => 1 + n
    | none => 5 + u16 bs 3

/-- The request whose bits are `w`, bit 0 the least significant bit of its first byte, with every bit from `nbits` on 0:
as many bytes as its op's format requires. -/
def tableRequest (nbits w : Nat) : List Byte :=
  leBytes (requestLength (leBytes 5 (w % 2 ^ nbits))) (w % 2 ^ nbits)

/-- The instruction the decoder reads from a request of the opcode table's numbering. -/
def decodeTableWord (nbits w : Nat) : Option Instr :=
  match decode (tableRequest nbits w) with
  | .ok i => some i
  | .error _ => none

end Sys2Proof
end

