-- ==== Sys2Proof/Config.lean ====
section
/-! DEFINITION. What a run fixes: the constants of 00_scope.md rule R6, the types of the parameters of rule R7,
and the free values, which are constants with no body (nothing in Lean can say what they are).

The parameters' default values are in Sys2Proof/Machine/Params.lean. A state carries its parameters in the field
`cfg`, which no step changes (R203; notes/assumptions/4.md). -/

namespace Sys2Proof

/-! ### Constants the source fixes (R6) -/

namespace Config

/-- `MAX_PAYLOAD`: the largest payload length of one message. -/
abbrev maxPayload : Nat := 512
/-- `HDR`: the header length. -/
abbrev hdr : Nat := 4
/-- `LEAD_OUT`: the reserved leading bytes of an outbound packet. -/
abbrev leadOut : Nat := 1
/-- `SEQ_CAP`: the capacity of the pattern sequence store. -/
abbrev seqCap : Nat := 128
/-- `VX_CAP`: the capacity of the variable-exposure store. -/
abbrev vxCap : Nat := 1824
/-- `MIN_GAP`: the gap `period − exposure` must exceed this many microseconds. -/
abbrev minGap : Nat := 230
/-- `LUT_ENTRY_BYTES`: the bytes of one LUT entry. -/
abbrev lutEntryBytes : Nat := 3
/-- `CMD_LEN`: the bytes of a command code. -/
abbrev cmdLen : Nat := 2
/-- `SEQ_MAX_INDEX`: the largest pattern index in the pattern sequence store. -/
abbrev seqMaxIndex : Nat := 24
/-- `VX_MAX_INDEX`: the largest pattern index in the variable-exposure store. -/
abbrev vxMaxIndex : Nat := 25
/-- `MAX_DEPTH`: the largest bit depth; the smallest is 1. -/
abbrev maxDepth : Nat := 8
/-- `LED_MAX`: the largest LED current of one channel. -/
abbrev ledMax : Nat := 255

end Config

/-! ### Parameters (R7) -/

/-- `FLAG_LAYOUT` (R53): where the fields of the flag byte stand. -/
inductive FlagLayout where
  | literal
  | msb0
deriving DecidableEq, Repr

/-- The device registers that have a command code (R113). `mboxData` is reached by LUT_UPLOAD alone (R180). -/
inductive Reg where
  | powerMode | ledEnable | ledCurrent | inputSource | testPattern | displayMode | gamma
  | patTriggerMode | patDataSource | patSeqStatus | patPeriod | patConfig | mboxMode | mboxOffset
  | mboxData | validate | version | firmwareTag | hwStatus | sysStatus | mainStatus
deriving DecidableEq, Repr

/-- One value for each device register, as plain data. -/
structure RegTable (α : Type) where
  powerMode : α
  ledEnable : α
  ledCurrent : α
  inputSource : α
  testPattern : α
  displayMode : α
  gamma : α
  patTriggerMode : α
  patDataSource : α
  patSeqStatus : α
  patPeriod : α
  patConfig : α
  mboxMode : α
  mboxOffset : α
  mboxData : α
  validate : α
  version : α
  firmwareTag : α
  hwStatus : α
  sysStatus : α
  mainStatus : α
deriving DecidableEq, Repr

/-- One field of a layout, `byte b, bits [hi:lo]` (R115). A field of several bytes in little-endian order
(`bytes 0–3 as LE32`, R146, R161) is written with `hi` above 7: bit `n` of byte `b` is bit `8·b + n` of the register
read as one little-endian number. -/
structure BitField where
  byte : Nat
  hi : Nat
  lo : Nat
deriving DecidableEq, Repr

/-- The layout of a register (R115): its width in bytes, `none` for a variable width (R163), and its fields in
declaration order. Bits no field covers are reserved. -/
structure Layout where
  width : Option Nat
  fields : List BitField
deriving DecidableEq, Repr

/-- The values the spec names for register fields, part of `REGMAP` (42_codec.md; R5, R14). -/
structure NamedValues where
  /-- POWER_MODE (R116). -/
  powerNormal : Byte
  powerStandby : Byte
  /-- INPUT_SOURCE, its source field (R125). -/
  sourceParallelRgb : Byte
  sourceTestPattern : Byte
  sourceFlashImages : Byte
  sourceFpdLink : Byte
  /-- INPUT_SOURCE, its portWidth field (R125). -/
  port30Bit : Byte
  port24Bit : Byte
  port20Bit : Byte
  port16Bit : Byte
  port10Bit : Byte
  port8Bit : Byte
  /-- TEST_PATTERN (R128). -/
  testSolidField : Byte
  testHorizontalRamp : Byte
  testVerticalRamp : Byte
  testHorizontalLines : Byte
  testDiagonalLines : Byte
  testVerticalLines : Byte
  testGrid : Byte
  testCheckerboard : Byte
  testRgbRamp : Byte
  testColourBars : Byte
  testStepBars : Byte
  /-- DISPLAY_MODE (R131). -/
  displayVideo : Byte
  displayPattern : Byte
  /-- PAT_TRIGGER_MODE (R137). -/
  triggerMode0 : Byte
  triggerMode1 : Byte
  triggerMode2 : Byte
  triggerMode3 : Byte
  triggerMode4 : Byte
  /-- PAT_DATA_SOURCE (R140). -/
  dataExternal : Byte
  dataInternal : Byte
  /-- PAT_SEQ_STATUS (R143). -/
  patStop : Byte
  patPause : Byte
  patStart : Byte
  /-- MBOX_MODE (R152). -/
  mboxDisable : Byte
  mboxImageIndex : Byte
  mboxPattern : Byte
deriving DecidableEq, Repr

/-- How a version word is split, part of `REGMAP` (R161; G24 of 93_implementation_defined.md): each part is a field of the word's
four bytes. -/
structure VersionFields where
  major : BitField
  minor : BitField
  patch : BitField
deriving DecidableEq, Repr

/-- The implementation parameters of R7. `READ_TIMEOUT` is held by the adapter and never read by the block (D55). -/
structure Params where
  /-- `P`: the header-plus-payload bytes one transport packet carries. -/
  p : Nat
  /-- `LEAD_BYTE`: the reserved leading byte of an outbound packet. -/
  leadByte : Byte
  /-- `PAD_BYTE`: the fill of a short last outbound packet. -/
  padByte : Byte
  /-- `IN_LEAD`: the leading bytes of an inbound packet, 0 or 1. -/
  inLead : Fin 2
  flagLayout : FlagLayout
  /-- `DEST(reg)`. -/
  dest : RegTable (BitVec 3)
  /-- `CMD(reg)`. -/
  cmd : RegTable Half
  /-- `REGMAP`, its layouts. -/
  layout : RegTable Layout
  /-- `REGMAP`, the numbers of the values it names. -/
  named : NamedValues
  /-- `REGMAP`, the parts of a version word (R161). -/
  versionFields : VersionFields
  /-- `REGMAP`, the parameter bytes of SET.VALIDATE (R160). -/
  validateParams : List Byte
deriving DecidableEq, Repr

/-! ### What the adapter answers (10_state.md rules R18, R19) -/

/-- The adapter's integer result of `TxPacket` (R18): −1, or the count of bytes it reports written. -/
inductive TxAnswer where
  /-- The result −1: the write failed. -/
  | failed
  /-- A result of 0 or more. -/
  | wrote (count : Nat)
deriving DecidableEq, Repr, Inhabited

/-- The adapter's answer to `RxPacket` (R19). -/
inductive RxAnswer where
  /-- `DATA(buf)`. -/
  | data (buf : List Byte)
  /-- The adapter's timed read expired. -/
  | timeout
  /-- Any other adapter read failure. -/
  | error
deriving DecidableEq, Repr, Inhabited

/-- One triple of the variable-exposure store (R26). -/
structure VxEntry where
  word : PatternWord
  exposure : Word32
  period : Word32
deriving DecidableEq, Repr, Inhabited

/-! ### Free values

Each is an opaque constant: no proof can see what it is, so a claim holds whatever it is. A fresh value each time is the
constant applied to the counter `State.freeIndex`. -/

namespace Config

/-- `CMD(FIRMWARE_TAG)`: an OPEN parameter, with no default (R113, R163; D48). -/
opaque cmdFirmwareTag : Half

/-- The adapter's free answer to a `TxPacket` (R18: which value the adapter returns is a draw). -/
opaque txDraw : Nat → TxAnswer

/-- The adapter's free answer to an `RxPacket` (R19, R47: a draw). -/
opaque rxDraw : Nat → RxAnswer

/-- What TXBUF holds between requests: unspecified (R28, R36). -/
opaque idleTxbuf : Nat → List Byte

/-- What RXBUF holds between requests: unspecified (R29, R36). -/
opaque idleRxbuf : Nat → List Byte

/-- What a SEQ store entry nothing has written holds: no value (R23, R36; I24). -/
opaque unwrittenSeq : Nat → PatternWord

/-- What a VX store entry nothing has written holds: no value (R26, R36; I24). -/
opaque unwrittenVx : Nat → VxEntry

/-- The result byte of a field value above 255, which no default layout with one result byte a field has: R75 gives a field one
byte and says nothing of a wider one (notes/assumptions/21.md). -/
opaque wideFieldByte : Nat → Byte

/-- The result word of a PAT_PERIOD or VERSION field value of 2^32 or more, which the default layouts cannot give: R75 gives the
field four bytes and says nothing of a wider one (notes/assumptions/21.md). -/
opaque wideFieldWord : Nat → Word32

/-- Byte `i` of a register that has no byte `i`, which no default layout leads to (notes/assumptions/21.md). -/
opaque absentByte : Nat → Byte

end Config

end Sys2Proof
end

