-- ==== Sys2Proof/Machine/Params.lean ====
section
/-! DEFINITION. The default values of the parameters (00_scope.md rule R7, 42_codec.md).

PRESUMED: every `CMD` default, every `DEST` default, `P`, `LEAD_BYTE`, the layouts and the named values are marked in the spec as general
knowledge of TI's DLPC350, not of the source (R5, R14; notes/assumptions/4.md). A claim about wire bytes is stated for
every value of them, or under named ones. -/

namespace Sys2Proof

/-- The entry of a register's table for one register. -/
def RegTable.get {α : Type} (t : RegTable α) : Reg → α
  | .powerMode => t.powerMode
  | .ledEnable => t.ledEnable
  | .ledCurrent => t.ledCurrent
  | .inputSource => t.inputSource
  | .testPattern => t.testPattern
  | .displayMode => t.displayMode
  | .gamma => t.gamma
  | .patTriggerMode => t.patTriggerMode
  | .patDataSource => t.patDataSource
  | .patSeqStatus => t.patSeqStatus
  | .patPeriod => t.patPeriod
  | .patConfig => t.patConfig
  | .mboxMode => t.mboxMode
  | .mboxOffset => t.mboxOffset
  | .mboxData => t.mboxData
  | .validate => t.validate
  | .version => t.version
  | .firmwareTag => t.firmwareTag
  | .hwStatus => t.hwStatus
  | .sysStatus => t.sysStatus
  | .mainStatus => t.mainStatus

namespace Machine

/-- `CMD` (R113). The firmware tag has no default: an open value. -/
def defaultCmd : RegTable Half where
  powerMode := 0x0200
  ledEnable := 0x1A07
  ledCurrent := 0x0B01
  inputSource := 0x1A00
  testPattern := 0x1203
  displayMode := 0x1A1B
  gamma := 0x1A0E
  patTriggerMode := 0x1A23
  patDataSource := 0x1A22
  patSeqStatus := 0x1A24
  patPeriod := 0x1A29
  patConfig := 0x1A31
  mboxMode := 0x1A33
  mboxOffset := 0x1A32
  mboxData := 0x1A34
  validate := 0x1A1A
  version := 0x0205
  firmwareTag := Config.cmdFirmwareTag
  hwStatus := 0x1A0A
  sysStatus := 0x1A0B
  mainStatus := 0x1A0C

/-- `DEST` (R7, R113): 0 for every register. -/
def defaultDest : RegTable (BitVec 3) where
  powerMode := 0
  ledEnable := 0
  ledCurrent := 0
  inputSource := 0
  testPattern := 0
  displayMode := 0
  gamma := 0
  patTriggerMode := 0
  patDataSource := 0
  patSeqStatus := 0
  patPeriod := 0
  patConfig := 0
  mboxMode := 0
  mboxOffset := 0
  mboxData := 0
  validate := 0
  version := 0
  firmwareTag := 0
  hwStatus := 0
  sysStatus := 0
  mainStatus := 0

/-- `REGMAP`: the layouts of 42_codec.md, each field as (byte, hi, lo) in declaration order. -/
def defaultLayout : RegTable Layout where
  -- R116: mode
  powerMode := ⟨some 1, [⟨0, 7, 0⟩]⟩
  -- R119: red, green, blue, seqCtrl
  ledEnable := ⟨some 1, [⟨0, 0, 0⟩, ⟨0, 1, 1⟩, ⟨0, 2, 2⟩, ⟨0, 3, 3⟩]⟩
  -- R122: redWire, greenWire, blueWire
  ledCurrent := ⟨some 3, [⟨0, 7, 0⟩, ⟨1, 7, 0⟩, ⟨2, 7, 0⟩]⟩
  -- R125: source, portWidth
  inputSource := ⟨some 1, [⟨0, 2, 0⟩, ⟨0, 5, 3⟩]⟩
  -- R128: pattern
  testPattern := ⟨some 1, [⟨0, 3, 0⟩]⟩
  -- R131: mode
  displayMode := ⟨some 1, [⟨0, 0, 0⟩]⟩
  -- R134: table, enable
  gamma := ⟨some 1, [⟨0, 1, 0⟩, ⟨0, 7, 7⟩]⟩
  -- R137: mode
  patTriggerMode := ⟨some 1, [⟨0, 7, 0⟩]⟩
  -- R140: source
  patDataSource := ⟨some 1, [⟨0, 1, 0⟩]⟩
  -- R143: status
  patSeqStatus := ⟨some 1, [⟨0, 1, 0⟩]⟩
  -- R146: exposure, period
  patPeriod := ⟨some 8, [⟨0, 31, 0⟩, ⟨4, 31, 0⟩]⟩
  -- R149: numLutEntriesM1, repeat, numPatsTrigOut2M1, numImagesM1
  patConfig := ⟨some 4, [⟨0, 6, 0⟩, ⟨1, 0, 0⟩, ⟨2, 7, 0⟩, ⟨3, 5, 0⟩]⟩
  -- R152: mode
  mboxMode := ⟨some 1, [⟨0, 1, 0⟩]⟩
  -- R155: offset
  mboxOffset := ⟨some 1, [⟨0, 7, 0⟩]⟩
  -- R180: written by LUT_UPLOAD only; it has no layout rule, and nothing reads this entry
  mboxData := ⟨none, []⟩
  -- R158: invalidPeriod, invalidPattern, invalidTrigOut1, invalidPostVector, invalidPeriodDiff, busy
  validate := ⟨some 1, [⟨0, 0, 0⟩, ⟨0, 1, 1⟩, ⟨0, 2, 2⟩, ⟨0, 3, 3⟩, ⟨0, 4, 4⟩, ⟨0, 7, 7⟩]⟩
  -- R161: appSw, apiSw, swConfig, seqConfig
  version := ⟨some 16, [⟨0, 31, 0⟩, ⟨4, 31, 0⟩, ⟨8, 31, 0⟩, ⟨12, 31, 0⟩]⟩
  -- R163: variable width, the whole payload
  firmwareTag := ⟨none, []⟩
  -- R165, R167, R169: status
  hwStatus := ⟨some 1, [⟨0, 7, 0⟩]⟩
  sysStatus := ⟨some 1, [⟨0, 7, 0⟩]⟩
  mainStatus := ⟨some 1, [⟨0, 7, 0⟩]⟩

/-- `REGMAP`, the numbers of the values 42_codec.md names. -/
def defaultNamed : NamedValues where
  -- R116
  powerNormal := 0
  powerStandby := 1
  -- R125
  sourceParallelRgb := 0
  sourceTestPattern := 1
  sourceFlashImages := 2
  sourceFpdLink := 3
  port30Bit := 0
  port24Bit := 1
  port20Bit := 2
  port16Bit := 3
  port10Bit := 4
  port8Bit := 5
  -- R128
  testSolidField := 0
  testHorizontalRamp := 1
  testVerticalRamp := 2
  testHorizontalLines := 3
  testDiagonalLines := 4
  testVerticalLines := 5
  testGrid := 6
  testCheckerboard := 7
  testRgbRamp := 8
  testColourBars := 9
  testStepBars := 10
  -- R131
  displayVideo := 0
  displayPattern := 1
  -- R137
  triggerMode0 := 0
  triggerMode1 := 1
  triggerMode2 := 2
  triggerMode3 := 3
  triggerMode4 := 4
  -- R140
  dataExternal := 0
  dataInternal := 3
  -- R143
  patStop := 0
  patPause := 1
  patStart := 2
  -- R152
  mboxDisable := 0
  mboxImageIndex := 1
  mboxPattern := 2

/-- `REGMAP`, the parts of a version word (R161): bits 31:24 major, 23:16 minor, 15:0 patch. -/
def defaultVersionFields : VersionFields where
  major := ⟨0, 31, 24⟩
  minor := ⟨0, 23, 16⟩
  patch := ⟨0, 15, 0⟩

/-- The defaults of R7. SET.VALIDATE has no parameter bytes (R160, D39). -/
def defaultParams : Params where
  p := 64
  leadByte := 0x00
  padByte := 0x00
  inLead := 0
  flagLayout := .literal
  dest := defaultDest
  cmd := defaultCmd
  layout := defaultLayout
  named := defaultNamed
  versionFields := defaultVersionFields
  validateParams := []

end Machine

end Sys2Proof
end

