-- ==== Sys2Proof/Machine/State.lean ====
section
/-! DEFINITION. The state of the block as plain data (10_state.md), the reasons a step can stop, the error codes' names
(60_exceptions.md rules R181, R182), and the state after reset (R36, R201). -/

namespace Sys2Proof.Machine

/-- The reasons the machine stops with a fault: none. Every failure the spec describes ends the request with a status and
a cause on the response port, and the block is ready for the next request (R184, R188), so a failure is a next state.
Nothing raises a fault; safe. -/
inductive Fault where
deriving DecidableEq, Repr

/-- The reasons a step has no meaning. -/
inductive Refusal where
  /-- An operation of the table that has no meaning yet. Raised by `exec` alone; safe. No arm of `exec` raises it. -/
  | notModelled (mnemonic : String)
deriving DecidableEq, Repr

/-- The error kinds of R181. -/
inductive Status where
  | ok | transportError | protocolError | timeoutError | retryExhausted | preconditionViolation | illegalRequest
deriving DecidableEq, Repr

/-- The causes of R182, each under its name. -/
inductive Cause where
  | teWrite | teRead
  | peNack | peEmpty | peLength | peShort
  | toRead
  | pvPayloadLen | pvNoReply | pvPeriod | pvPatternIndex | pvBitDepth | pvLedSelect | pvFieldRange | pvCapacity
  | pvIndex | pvEmptyLut
  | irOpcode | irLength
deriving DecidableEq, Repr

/-- `MBOX_STEP` (R30, R178). -/
inductive MboxStep where
  | idle | open | offset | data | close
deriving DecidableEq, Repr

/-- One transport event (R10, R18 to R20), with the adapter's answer. -/
inductive Event where
  /-- `TxPacket(buf)`. -/
  | tx (buf : List Byte) (answer : TxAnswer)
  /-- `RxPacket()`. -/
  | rx (answer : RxAnswer)
  /-- `Close()`. -/
  | close
deriving DecidableEq, Repr

/-- The state of the block, its ports and the adapter's answers still to come. -/
structure State where
  /-- The parameters of R7, fixed for a run; no step writes them (R203; notes/assumptions/4.md). -/
  cfg : Params
  /-- The request port (R16): the host's requests not yet taken, the next one first (notes/assumptions/2.md). -/
  requests : List (List Byte)
  /-- The response port (R17): the responses given so far, oldest first (notes/assumptions/3.md). -/
  responses : List (List Byte)
  /-- LAST_STATUS (R21). -/
  lastStatus : Byte
  /-- LAST_CAUSE (R22). -/
  lastCause : Byte
  /-- SEQ_ENTRY (R23): the entries written, as (index, word) with the indices strictly rising. -/
  seqEntry : List (Nat × PatternWord)
  /-- SEQ_COUNT (R24). -/
  seqCount : BitVec 8
  /-- SEQ_EXPOSURE (R25). -/
  seqExposure : Word32
  /-- SEQ_PERIOD (R25). -/
  seqPeriod : Word32
  /-- VX_ENTRY (R26): the entries written, as (index, triple) with the indices strictly rising. -/
  vxEntry : List (Nat × VxEntry)
  /-- VX_COUNT (R27). -/
  vxCount : BitVec 11
  /-- TXBUF (R28): transient. -/
  txbuf : List Byte
  /-- RXBUF (R29): transient. -/
  rxbuf : List Byte
  /-- MBOX_STEP (R30): transient. -/
  mboxStep : MboxStep
  /-- The model's own: the adapter's answers to the coming `TxPacket` events, the next one first
  (R18; notes/assumptions/7.md). -/
  txAnswers : List TxAnswer
  /-- The model's own: the adapter's answers to the coming `RxPacket` events, the next one first
  (R19; notes/assumptions/7.md). -/
  rxAnswers : List RxAnswer
  /-- The trace of transport events in issue order, oldest first (R10, R46, R195). -/
  trace : List Event
  /-- The model's own: how many free values have been taken (notes/assumptions/8.md). -/
  freeIndex : Nat
deriving DecidableEq, Repr

/-- The machine right after reset (R36, R201): both stores empty, LAST_STATUS OK, MBOX_STEP IDLE, no transport event, no
request presented. The buffers' values are not the spec's (notes/assumptions/9.md), and the ports and the model's own
fields start empty (notes/assumptions/11.md). -/
def State.reset : State where
  cfg := defaultParams
  requests := []
  responses := []
  lastStatus := 0
  lastCause := 0
  seqEntry := []
  seqCount := 0
  seqExposure := 0
  seqPeriod := 0
  vxEntry := []
  vxCount := 0
  txbuf := []
  rxbuf := []
  mboxStep := .idle
  txAnswers := []
  rxAnswers := []
  trace := []
  freeIndex := 0

end Sys2Proof.Machine
end

