-- ==== Sys2Proof/Machine/Flags.lean ====
section
/-! DEFINITION. The numeric codes of LAST_STATUS and LAST_CAUSE (60_exceptions.md rules R181, R182), the block's only
status flags (R33), and the flag byte of a message header (30_encoding.md rule R53). -/

namespace Sys2Proof.Machine

/-- The status codes (R181). -/
def Status.code : Status → Byte
  | .ok => 0
  | .transportError => 1
  | .protocolError => 2
  | .timeoutError => 3
  | .retryExhausted => 4
  | .preconditionViolation => 5
  | .illegalRequest => 6

/-- The error kind a cause refines (R182). -/
def Cause.status : Cause → Status
  | .teWrite | .teRead => .transportError
  | .peNack | .peEmpty | .peLength | .peShort => .protocolError
  | .toRead => .timeoutError
  | .pvPayloadLen | .pvNoReply | .pvPeriod | .pvPatternIndex | .pvBitDepth | .pvLedSelect | .pvFieldRange
  | .pvCapacity | .pvIndex | .pvEmptyLut => .preconditionViolation
  | .irOpcode | .irLength => .illegalRequest

/-- The cause codes, numbered from 1 within each status (R182). -/
def Cause.code : Cause → Byte
  | .teWrite => 1
  | .teRead => 2
  | .peNack => 1
  | .peEmpty => 2
  | .peLength => 3
  | .peShort => 4
  | .toRead => 1
  | .pvPayloadLen => 1
  | .pvNoReply => 2
  | .pvPeriod => 3
  | .pvPatternIndex => 4
  | .pvBitDepth => 5
  | .pvLedSelect => 6
  | .pvFieldRange => 7
  | .pvCapacity => 8
  | .pvIndex => 9
  | .pvEmptyLut => 10
  | .irOpcode => 1
  | .irLength => 2

/-- The cause the request decoder's refusal raises (R183). -/
def decodeCause : DecodeError → Cause
  | .opcode => .irOpcode
  | .length => .irLength

/-! ### The flag byte (R53) -/

/-- The `rw` field: 1 is READ, 0 is WRITE (R53). -/
inductive Rw where
  | write
  | read
deriving DecidableEq, Repr

/-- The bit of an `rw` field. -/
def Rw.bit : Rw → Bool
  | .write => false
  | .read => true

/-- The `rw` field a bit stands for. -/
def Rw.ofBit : Bool → Rw
  | false => .write
  | true => .read

/-- The fields of a flag byte, less the reserved bits. -/
structure FlagFields where
  rw : Rw
  reply : Bool
  error : Bool
  dest : BitVec 3
deriving DecidableEq, Repr

/-- `Flags(rw, reply, error, dest)` (R53): each field in its place, the reserved bits 0. -/
def encodeFlags (layout : FlagLayout) (f : FlagFields) : Byte :=
  match layout with
  | .literal =>
    f.dest ++ 0#2 ++ BitVec.ofBool f.error ++ BitVec.ofBool f.reply ++ BitVec.ofBool f.rw.bit
  | .msb0 =>
    BitVec.ofBool f.rw.bit ++ BitVec.ofBool f.reply ++ BitVec.ofBool f.error ++ 0#2 ++ f.dest

/-- `DecodeFlags(f)` (R87): the fields from their places, the reserved bits ignored. -/
def decodeFlags (layout : FlagLayout) (b : Byte) : FlagFields :=
  match layout with
  | .literal =>
    ⟨Rw.ofBit (b.getLsbD 0), b.getLsbD 1, b.getLsbD 2, b.extractLsb' 5 3⟩
  | .msb0 =>
    ⟨Rw.ofBit (b.getLsbD 7), b.getLsbD 6, b.getLsbD 5, b.extractLsb' 0 3⟩

/-- The reserved bits `f[4:3]`, in the same place under both layouts (R53). -/
def reservedBits (b : Byte) : BitVec 2 := b.extractLsb' 3 2

end Sys2Proof.Machine
end

