-- ==== Sys2Proof/Machine/Operands.lean ====
section
/-! DEFINITION. What the operands and the replies hold: pattern descriptors and their packed words (41_pattern.md section 1),
register layouts (42_codec.md rule R115), the values the spec names, and a message decoded from its envelope. -/

namespace Sys2Proof.Machine

/-! ### The pattern descriptor -/

/-- `FitsWidth(p)` (R94). -/
def fitsWidth (p : Pattern) : Bool :=
  decide (p.triggerType.toNat ≤ 3 ∧ p.patternIndex.toNat ≤ 63 ∧ p.bitDepth.toNat ≤ 15 ∧ p.ledSelect.toNat ≤ 15 ∧
    p.invertPattern.toNat ≤ 1 ∧ p.insertBlack.toNat ≤ 1 ∧ p.bufferSwap.toNat ≤ 1 ∧ p.triggerOutPrevious.toNat ≤ 1)

/-- `PackPattern(p)` (R95): the 24-bit word. -/
def packPattern (p : Pattern) : Word24 :=
  p.triggerType.setWidth 24
    ||| (p.patternIndex.setWidth 24 <<< 2)
    ||| (p.bitDepth.setWidth 24 <<< 8)
    ||| (p.ledSelect.setWidth 24 <<< 12)
    ||| (p.invertPattern.setWidth 24 <<< 16)
    ||| (p.insertBlack.setWidth 24 <<< 17)
    ||| (p.bufferSwap.setWidth 24 <<< 18)
    ||| (p.triggerOutPrevious.setWidth 24 <<< 19)

/-- `UnpackPattern(w)` (R96): bits 23:20 are ignored. -/
def unpackPattern (w : Word24) : Pattern where
  triggerType := (w.extractLsb' 0 2).setWidth 8
  patternIndex := (w.extractLsb' 2 6).setWidth 8
  bitDepth := (w.extractLsb' 8 4).setWidth 8
  ledSelect := (w.extractLsb' 12 4).setWidth 8
  invertPattern := (w.extractLsb' 16 1).setWidth 8
  insertBlack := (w.extractLsb' 17 1).setWidth 8
  bufferSwap := (w.extractLsb' 18 1).setWidth 8
  triggerOutPrevious := (w.extractLsb' 19 1).setWidth 8

/-- The packed word a store holds: its 20 significant bits (R59, R23). -/
def storedWord (p : Pattern) : PatternWord := (packPattern p).setWidth 20

/-- The admission check of a store, with the largest index it admits: the first test that fails, in the order of R97. -/
def admissionError (maxIndex : Nat) (p : Pattern) : Option Cause :=
  if 3 < p.triggerType.toNat then some .pvFieldRange
  else if maxIndex < p.patternIndex.toNat then some .pvPatternIndex
  else if p.bitDepth.toNat < 1 ∨ Config.maxDepth < p.bitDepth.toNat then some .pvBitDepth
  else if 7 < p.ledSelect.toNat then some .pvLedSelect
  else if 1 < p.invertPattern.toNat ∨ 1 < p.insertBlack.toNat ∨ 1 < p.bufferSwap.toNat
      ∨ 1 < p.triggerOutPrevious.toNat then some .pvFieldRange
  else none

/-- `SeqCheck(p)` (R97). -/
def seqCheck (p : Pattern) : Option Cause := admissionError Config.seqMaxIndex p

/-- `VxCheck(p)` (R98). -/
def vxCheck (p : Pattern) : Option Cause := admissionError Config.vxMaxIndex p

/-- The descriptor as it is stored (R99): the first entry of an empty store has its buffer swap set. -/
def admitted (storeEmpty : Bool) (p : Pattern) : Pattern :=
  if storeEmpty then { p with bufferSwap := 1 } else p

/-- `ValidTiming(exposure, period)` (R100). -/
def validTiming (exposure period : Word32) : Bool :=
  decide (exposure.toNat ≤ period.toNat ∧ Config.minGap < period.toNat - exposure.toNat)

/-! ### Register layouts (R115) -/

/-- The bits a field has. -/
def fieldWidth (f : BitField) : Nat := f.hi + 1 - f.lo

/-- Where a field starts in the register read as one little-endian number: bit `lo` of byte `byte`. -/
def fieldOffset (f : BitField) : Nat := 8 * f.byte + f.lo

/-- The field's value in a register value: `raw[b][hi:lo]`. -/
def fieldRead (f : BitField) (raw : List Byte) : Nat :=
  leNat raw / 2 ^ fieldOffset f % 2 ^ fieldWidth f

/-- The register number with the field set, `byte_b[hi:lo] <- v`, every other bit kept. -/
def fieldWrite (f : BitField) (v : Nat) (n : Nat) : Nat :=
  n % 2 ^ fieldOffset f
    + (v % 2 ^ fieldWidth f) * 2 ^ fieldOffset f
    + (n / 2 ^ (fieldOffset f + fieldWidth f)) * 2 ^ (fieldOffset f + fieldWidth f)

/-- `Fits(layout, v)`: each field value fits its field. -/
def layoutFits (l : Layout) (v : List Nat) : Bool :=
  (l.fields.zip v).all fun fv => decide (fv.2 < 2 ^ fieldWidth fv.1)

/-- `Pack(layout, v)`: from all-zero bytes, each field set in turn; reserved bits stay 0. -/
def layoutPack (l : Layout) (v : List Nat) : List Byte :=
  leBytes (l.width.getD 0) ((l.fields.zip v).foldl (fun n fv => fieldWrite fv.1 fv.2 n) 0)

/-- `Unpack(layout, raw)`: the value of each field, in declaration order; reserved bits are ignored. -/
def layoutUnpack (l : Layout) (raw : List Byte) : List Nat :=
  l.fields.map fun f => fieldRead f raw

/-- A field value as a result byte (the GET results of R75). What a value above 255 gives is free (notes/assumptions/21.md). -/
def fieldByte (n : Nat) : Byte := if n < 256 then BitVec.ofNat 8 n else Config.wideFieldByte n

/-- A PAT_PERIOD or VERSION field value as four result bytes (R75, R147, R162). What a value of 2^32 or more gives is free
(notes/assumptions/21.md). -/
def fieldWord (n : Nat) : List Byte := if n < 2 ^ 32 then le32 n else le32 (Config.wideFieldWord n).toNat

/-- Field values as result bytes, one byte a field (the GET results of R75). -/
def fieldBytes (v : List Nat) : List Byte := v.map fieldByte

/-- `raw[i]`. What a register with no byte `i` gives is free (notes/assumptions/21.md). -/
def rawByte (raw : List Byte) (i : Nat) : Byte :=
  match raw[i]? with
  | some b => b
  | none => Config.absentByte i

/-- Operand bytes as field values. -/
def fieldValues (bs : List Byte) : List Nat := bs.map fun b => b.toNat

/-- The layout of a register under the parameters. -/
def layoutOf (cfg : Params) (r : Reg) : Layout := cfg.layout.get r

/-! ### LED current (R122) -/

/-- The wire value of a requested current, and the current of a wire value: `255 − c`. -/
def invertCurrent (c : Byte) : Byte := BitVec.ofNat 8 (Config.ledMax - c.toNat)

/-! ### The validation result (R158) -/

/-- `isValid`: the five failure bits are 0. -/
def validationIsValid (v : List Nat) : Bool := (v.take 5).all fun n => n == 0

/-- `isReady`: the busy bit is 0. -/
def validationIsReady (v : List Nat) : Bool := (v.getD 5 0) == 0

/-- A Boolean as a result byte. -/
def boolByte (b : Bool) : Byte := if b then 1 else 0

/-! ### Version words (R161) -/

/-- One version word's parts. -/
structure VersionWord where
  major : Nat
  minor : Nat
  patch : Nat
deriving DecidableEq, Repr

/-- The parts of a version word, in the places REGMAP gives them: by default bits 31:24, 23:16 and 15:0 (R161, G24;
notes/assumptions/4.md). No operation takes a word apart (R162). -/
def versionWord (cfg : Params) (word : Nat) : VersionWord where
  major := fieldRead cfg.versionFields.major (fieldWord word)
  minor := fieldRead cfg.versionFields.minor (fieldWord word)
  patch := fieldRead cfg.versionFields.patch (fieldWord word)

/-- The words of the VERSION register, in the places REGMAP gives them: appSw, apiSw, swConfig, seqConfig (R161, G24;
notes/assumptions/4.md). -/
def versionWords (cfg : Params) (raw : List Byte) : List VersionWord :=
  (layoutUnpack (layoutOf cfg .version) raw).map (versionWord cfg)

/-! ### Messages -/

/-- A message (R81): the fields of its flag byte, its sequence number and its payload. -/
structure Message where
  flags : FlagFields
  seq : Byte
  payload : List Byte
deriving DecidableEq, Repr

/-- The message an F_MSG operand stands for under a flag layout (R62): the reserved bits are ignored. -/
def envelopeMessage (layout : FlagLayout) (m : Envelope) : Message :=
  ⟨decodeFlags layout m.flags, m.seq, m.payload⟩

/-- A reply as `Read` returns it (R84). -/
structure Reply where
  flagsByte : Byte
  flags : FlagFields
  seq : Byte
  len : Nat
  payload : List Byte
deriving DecidableEq, Repr

/-- `GetMsg(reg)` (R114). -/
def getMsg (cfg : Params) (r : Reg) : Message :=
  ⟨⟨.read, true, false, cfg.dest.get r⟩, 0, le16 (cfg.cmd.get r).toNat⟩

/-- `SetMsg(reg, raw)` (R114). -/
def setMsg (cfg : Params) (r : Reg) (raw : List Byte) : Message :=
  ⟨⟨.write, true, false, cfg.dest.get r⟩, 0, le16 (cfg.cmd.get r).toNat ++ raw⟩

/-! ### The enum values of a pattern descriptor

Names only (R59, D29): no rule depends on them. -/

/-- `triggerType` (R59). -/
def triggerInternal : Byte := 0
def triggerExternalPositive : Byte := 1
def triggerExternalNegative : Byte := 2
def triggerNone : Byte := 3
/-- `ledSelect` (R59): bit 0 red, bit 1 green, bit 2 blue. -/
def ledNone : Byte := 0
def ledRed : Byte := 1
def ledGreen : Byte := 2
def ledYellow : Byte := 3
def ledBlue : Byte := 4
def ledMagenta : Byte := 5
def ledCyan : Byte := 6
def ledWhite : Byte := 7

end Sys2Proof.Machine
end

