-- ==== Sys2Proof/Machine/Ops.lean ====
section
/-! DEFINITION. The shared operations over the state: the stores (R10 MemRead, MemWrite), the transport port (R18 to R20), the
request and response ports (R16, R17), and what a success and a failure do (R184). -/

namespace Sys2Proof.Machine

/-- What a part of a request yields: a value, or the cause it raises (R10 `raise`), with the state it leaves. -/
abbrev Run (α : Type) := Except Cause α × State

/-! ### The stores

A store is a list of (index, entry) pairs with the indices strictly rising, so equal stores are equal lists. An index that is
not listed holds no value (R23, R26). The block has no memory with addresses (R37): the stores are all it has. -/

/-- `MemRead(store, i)`: the entry written at index `i`, if any. -/
def Memory.read {α : Type} (m : List (Nat × α)) (i : Nat) : Option α :=
  match m with
  | [] => none
  | (j, v) :: rest => if i = j then some v else Memory.read rest i

/-- `MemWrite(store, i, v)`: the entry at index `i` becomes `v`, every other entry is kept. -/
def Memory.write {α : Type} (m : List (Nat × α)) (i : Nat) (v : α) : List (Nat × α) :=
  match m with
  | [] => [(i, v)]
  | (j, w) :: rest =>
    if i < j then (i, v) :: (j, w) :: rest
    else if i = j then (i, v) :: rest
    else (j, w) :: Memory.write rest i v

/-- The canonical form: the indices strictly rise, from `lo` on. -/
def Memory.risingFrom {α : Type} (lo : Nat) (m : List (Nat × α)) : Bool :=
  match m with
  | [] => true
  | (j, _) :: rest => decide (lo ≤ j) && Memory.risingFrom (j + 1) rest

/-- A store of capacity `cap` is well formed: the indices strictly rise and lie below the capacity. -/
def Memory.wf {α : Type} (cap : Nat) (m : List (Nat × α)) : Bool :=
  Memory.risingFrom 0 m && m.all fun c => decide (c.1 < cap)

/-- `SEQ_ENTRY[i]` (R23). An entry nothing has written holds no value: a free one (notes/assumptions/10.md). -/
def State.seqWord (s : State) (i : Nat) : PatternWord :=
  (Memory.read s.seqEntry i).getD (Config.unwrittenSeq i)

/-- `VX_ENTRY[i]` (R26). An entry nothing has written holds no value: a free one (notes/assumptions/10.md). -/
def State.vxTriple (s : State) (i : Nat) : VxEntry :=
  (Memory.read s.vxEntry i).getD (Config.unwrittenVx i)

/-! ### The transport port -/

/-- A buffer of exactly `n` bytes: cut or filled with zero bytes. What the typing of R19 makes of an answer whose buffer has
another length (notes/assumptions/7.md); it changes no buffer of the right length. -/
def fitBuffer (n : Nat) (buf : List Byte) : List Byte :=
  (buf ++ List.replicate n 0).take n

/-- The typing of a transmit answer (R18): a count lies between 0 and `LEAD_OUT + P`. -/
def typedTx (cfg : Params) : TxAnswer → TxAnswer
  | .failed => .failed
  | .wrote n => .wrote (min n (Config.leadOut + cfg.p))

/-- The typing of a receive answer (R19): a buffer has `IN_LEAD + P` bytes. -/
def typedRx (cfg : Params) : RxAnswer → RxAnswer
  | .data buf => .data (fitBuffer (cfg.inLead.val + cfg.p) buf)
  | .timeout => .timeout
  | .error => .error

/-- The adapter's answer to a transmit, and what is left of its answers: the next of those given, or a free one. -/
def State.nextTx (s : State) : TxAnswer × State :=
  match s.txAnswers with
  | a :: rest => (typedTx s.cfg a, { s with txAnswers := rest })
  | [] => (typedTx s.cfg (Config.txDraw s.freeIndex), { s with freeIndex := s.freeIndex + 1 })

/-- The adapter's answer to a receive, and what is left of its answers: the next of those given, or a free one. -/
def State.nextRx (s : State) : RxAnswer × State :=
  match s.rxAnswers with
  | a :: rest => (typedRx s.cfg a, { s with rxAnswers := rest })
  | [] => (typedRx s.cfg (Config.rxDraw s.freeIndex), { s with freeIndex := s.freeIndex + 1 })

/-- An event joins the trace (R10, R46). -/
def State.record (s : State) (e : Event) : State := { s with trace := s.trace ++ [e] }

/-- `TxPacket(buf)` (R10, R18). -/
def State.txPacket (s : State) (buf : List Byte) : TxAnswer × State :=
  match s.nextTx with
  | (a, s') => (a, s'.record (.tx buf a))

/-- `RxPacket()` (R10, R19). -/
def State.rxPacket (s : State) : RxAnswer × State :=
  match s.nextRx with
  | (a, s') => (a, s'.record (.rx a))

/-- `Close()` (R10, R20). -/
def State.closeAdapter (s : State) : State := s.record .close

/-! ### Packet counts -/

/-- `PacketCount(n) = ceil(n / P)` (R82). -/
def packetCount (cfg : Params) (n : Nat) : Nat := (n + cfg.p - 1) / cfg.p

/-- The most bytes TXBUF holds: `HDR + MAX_PAYLOAD` (R28). -/
def txbufMax : Nat := Config.hdr + Config.maxPayload

/-- The most bytes RXBUF holds: `N·P` for the packet count of the longest message (R29). -/
def rxbufMax (cfg : Params) : Nat := packetCount cfg (Config.hdr + Config.maxPayload) * cfg.p

/-! ### The request and response ports -/

/-- The request at the port and the state with it taken (R16); `none` while the host has presented none. -/
def State.takeRequest (s : State) : Option (List Byte × State) :=
  match s.requests with
  | [] => none
  | r :: rest => some (r, { s with requests := rest })

/-- The request port with one more request presented, to be taken next. -/
def State.present (s : State) (r : List Byte) : State := { s with requests := r :: s.requests }

/-- The end of every request: LAST_STATUS and LAST_CAUSE are written and the response is given (R17, R21, R22, R184). The
two buffers are left unspecified (R28, R29): each holds a free value within its size. -/
def State.respond (s : State) (status cause : Byte) (result : List Byte) : State :=
  { s with
    lastStatus := status
    lastCause := cause
    responses := s.responses ++ [status :: cause :: result]
    txbuf := (Config.idleTxbuf s.freeIndex).take txbufMax
    rxbuf := (Config.idleRxbuf s.freeIndex).take (rxbufMax s.cfg)
    freeIndex := s.freeIndex + 1 }

/-- `return r` (R10): the operation ends with status OK and result `r`. -/
def State.succeed (s : State) (result : List Byte) : State := s.respond (Status.code .ok) 0 result

/-- TAKING AN EXCEPTION (R184): the operation ends with the status and the cause raised, MBOX_STEP returns to IDLE, and
nothing else of the block's state changes. `result` is empty but for LUT_UPLOAD's step mask (R17). There is no handler and no
return: the block is ready for the next request (R188). -/
def State.raise (s : State) (c : Cause) (result : List Byte) : State :=
  ({ s with mboxStep := .idle }).respond (Status.code (Cause.status c)) (Cause.code c) result

/-- The end of an operation that ran: its result, or the exception it raised. -/
def State.finish (r : Run (List Byte)) : State :=
  match r with
  | (.ok result, s) => s.succeed result
  | (.error c, s) => s.raise c []

/-- The end of an operation whose result bytes `f` makes from what it read. -/
def State.finishWith {α : Type} (r : Run α) (f : α → List Byte) : State :=
  match r with
  | (.ok a, s) => s.succeed (f a)
  | (.error c, s) => s.raise c []

/-- The end of a request the decoder refuses (R183). -/
def State.refuseRequest (s : State) (e : DecodeError) : State := s.raise (decodeCause e) []

end Sys2Proof.Machine
end

