-- ==== Sys2Proof/Machine/Framer.lean ====
section
/-! DEFINITION. The message framer (40_framer.md): the envelope, packetization, reassembly, and the operations MSG_WRITE,
MSG_READ and MSG_TRANSACT. -/

namespace Sys2Proof.Machine

/-! ### Outbound -/

/-- `EnvEncode(m)` (R81): the header, then the payload. The length field is always computed. -/
def envEncode (cfg : Params) (m : Message) : List Byte :=
  encodeFlags cfg.flagLayout m.flags :: m.seq :: (le16 m.payload.length ++ m.payload)

/-- `pad(s, n, b)` (R8). -/
def padTo (s : List Byte) (n : Nat) (b : Byte) : List Byte := s ++ List.replicate (n - s.length) b

/-- `Packet(S, k)` (R82): the leading byte, then chunk `k` of the stream padded to `P` bytes. -/
def packet (cfg : Params) (stream : List Byte) (k : Nat) : List Byte :=
  cfg.leadByte :: padTo ((stream.drop (k * cfg.p)).take cfg.p) cfg.p cfg.padByte

/-- The outbound packets of a stream, in order (R56). -/
def packets (cfg : Params) (stream : List Byte) : List (List Byte) :=
  (List.range (packetCount cfg stream.length)).map (packet cfg stream)

/-- The packets offered in order, the adapter's counts summed; the first −1 ends it and the later packets are not sent (R83). -/
def sendPackets : List (List Byte) → Nat → State → Run Nat
  | [], total, s => (.ok total, s)
  | buf :: rest, total, s =>
    match s.txPacket buf with
    | (.failed, s') => (.error .teWrite, s')
    | (.wrote n, s') => sendPackets rest (total + n) s'

/-- `Write(m)` (R83). The stream is built in TXBUF and sent from it. -/
def writeMessage (m : Message) (s : State) : Run Nat :=
  if Config.maxPayload < m.payload.length then (.error .pvPayloadLen, s)
  else
    sendPackets (packets s.cfg (envEncode s.cfg m)) 0 { s with txbuf := envEncode s.cfg m }

/-! ### Inbound -/

/-- `RxOrFail()` (R86): a failed receive closes the adapter. -/
def rxOrFail (s : State) : Run (List Byte) :=
  match s.rxPacket with
  | (.data buf, s') => (.ok buf, s')
  | (.timeout, s') => (.error .toRead, s'.closeAdapter)
  | (.error, s') => (.error .teRead, s'.closeAdapter)

/-- The stream bytes of an inbound buffer (R57): the `P` bytes after its leading bytes. -/
def streamBytes (cfg : Params) (buf : List Byte) : List Byte := (buf.drop cfg.inLead.val).take cfg.p

/-- `n` continuation packets, each joined to the stream in RXBUF (R84). -/
def readContinuation : Nat → State → Run Unit
  | 0, s => (.ok (), s)
  | n + 1, s =>
    match rxOrFail s with
    | (.error c, s') => (.error c, s')
    | (.ok buf, s') => readContinuation n { s' with rxbuf := s'.rxbuf ++ streamBytes s'.cfg buf }

/-- The reply a reassembled stream holds (R84): bytes past `HDR + L` are padding and are dropped. -/
def replyOf (cfg : Params) (stream : List Byte) : Reply where
  flagsByte := stream.getD 0 0
  flags := decodeFlags cfg.flagLayout (stream.getD 0 0)
  seq := stream.getD 1 0
  len := u16 stream 2
  payload := (stream.drop Config.hdr).take (u16 stream 2)

/-- `Read()` (R84): the length comes from the first packet; more packets are read only when it is legal. -/
def readMessage (s : State) : Run Reply :=
  match rxOrFail s with
  | (.error c, s1) => (.error c, s1)
  | (.ok buf, s1) =>
    let s2 := { s1 with rxbuf := streamBytes s1.cfg buf }
    if Config.maxPayload < u16 s2.rxbuf 2 then (.error .peLength, s2)
    else
      match readContinuation (packetCount s2.cfg (Config.hdr + u16 s2.rxbuf 2) - 1) s2 with
      | (.error c, s3) => (.error c, s3)
      | (.ok (), s3) => (.ok (replyOf s3.cfg s3.rxbuf), s3)

/-- The checks of a complete reply (R85): the error flag, then a read-type reply of length 0. -/
def checkReply (r : Reply) : Option Cause :=
  if r.flags.error then some .peNack
  else if r.flags.rw = .read ∧ r.len = 0 then some .peEmpty
  else none

/-- `Transact(m)` (R85): the reply's payload. -/
def transact (m : Message) (s : State) : Run (List Byte) :=
  if m.flags.reply then
    match writeMessage m s with
    | (.error c, s1) => (.error c, s1)
    | (.ok _, s1) =>
      match readMessage s1 with
      | (.error c, s2) => (.error c, s2)
      | (.ok r, s2) =>
        match checkReply r with
        | some c => (.error c, s2)
        | none => (.ok r.payload, s2)
  else (.error .pvNoReply, s)

/-! ### The operations -/

/-- MSG_WRITE (R83): the total of the adapter's counts. -/
def execMsgWrite (m : Envelope) (s : State) : Host.Outcome State Fault Refusal :=
  .next (State.finishWith (writeMessage (envelopeMessage s.cfg.flagLayout m) s) le32)

/-- MSG_READ (R84): the raw flag byte, the sequence number, the length and the payload. -/
def execMsgRead (s : State) : Host.Outcome State Fault Refusal :=
  .next (State.finishWith (readMessage s) fun r => r.flagsByte :: r.seq :: (le16 r.len ++ r.payload))

/-- MSG_TRANSACT (R85): the reply's length and payload. -/
def execMsgTransact (m : Envelope) (s : State) : Host.Outcome State Fault Refusal :=
  .next (State.finishWith (transact (envelopeMessage s.cfg.flagLayout m) s) fun pl => le16 pl.length ++ pl)

end Sys2Proof.Machine
end

