-- ==== Sys2Proof/Machine/Codec.lean ====
section
/-! DEFINITION. The register codec (42_codec.md): GET and SET of every device register. -/

namespace Sys2Proof.Machine

/-! ### The generic transactions (R114) -/

/-- `Get(reg)`: a payload shorter than the register is refused, extra bytes are ignored, a variable-width register takes the
whole payload. -/
def regGet (r : Reg) (s : State) : Run (List Byte) :=
  match transact (getMsg s.cfg r) s with
  | (.error c, s') => (.error c, s')
  | (.ok pl, s') =>
    match (layoutOf s.cfg r).width with
    | none => (.ok pl, s')
    | some w => if pl.length < w then (.error .peShort, s') else (.ok (pl.take w), s')

/-- `Set(reg, raw)`: the reply payload is discarded. -/
def regSet (r : Reg) (raw : List Byte) (s : State) : Run (List Byte) :=
  match transact (setMsg s.cfg r raw) s with
  | (.error c, s') => (.error c, s')
  | (.ok _, s') => (.ok [], s')

/-- The fields of a register's reply as result bytes (R115 `Unpack`, R75). -/
def unpackBytes (cfg : Params) (r : Reg) (raw : List Byte) : List Byte :=
  fieldBytes (layoutUnpack (layoutOf cfg r) raw)

/-- `Set(reg, Pack(layout, v))` with no field check. Where R139, R157 and R173, R174, R176 write the raw byte of a register
whose layout is a parameter (D24), the model sends it packed through that layout: DEDUCED, notes/assumptions/6.md. Under the
default layouts the two are the same byte. -/
def packSet (r : Reg) (v : List Byte) (s : State) : Run (List Byte) :=
  regSet r (layoutPack (layoutOf s.cfg r) (fieldValues v)) s

/-- A SET of a bit-packed register (R115): the field check, before any transport event, then `Set(reg, Pack(layout, v))`. -/
def checkedSet (r : Reg) (v : List Byte) (s : State) : Run (List Byte) :=
  if layoutFits (layoutOf s.cfg r) (fieldValues v) then packSet r v s else (.error .pvFieldRange, s)

/-! ### GET -/

/-- GET.POWER_MODE (R117). -/
def execGetPowerMode (s : State) : Host.Outcome State Fault Refusal :=
  .next (State.finishWith (regGet .powerMode s) (unpackBytes s.cfg .powerMode))

/-- GET.LED_ENABLE (R120). -/
def execGetLedEnable (s : State) : Host.Outcome State Fault Refusal :=
  .next (State.finishWith (regGet .ledEnable s) (unpackBytes s.cfg .ledEnable))

/-- GET.LED_CURRENT (R123): each channel inverted back. -/
def execGetLedCurrent (s : State) : Host.Outcome State Fault Refusal :=
  .next (State.finishWith (regGet .ledCurrent s) fun w =>
    [invertCurrent (rawByte w 0), invertCurrent (rawByte w 1), invertCurrent (rawByte w 2)])

/-- GET.INPUT_SOURCE (R126). -/
def execGetInputSource (s : State) : Host.Outcome State Fault Refusal :=
  .next (State.finishWith (regGet .inputSource s) (unpackBytes s.cfg .inputSource))

/-- GET.TEST_PATTERN (R129). -/
def execGetTestPattern (s : State) : Host.Outcome State Fault Refusal :=
  .next (State.finishWith (regGet .testPattern s) (unpackBytes s.cfg .testPattern))

/-- GET.DISPLAY_MODE (R132). -/
def execGetDisplayMode (s : State) : Host.Outcome State Fault Refusal :=
  .next (State.finishWith (regGet .displayMode s) (unpackBytes s.cfg .displayMode))

/-- GET.GAMMA (R135). -/
def execGetGamma (s : State) : Host.Outcome State Fault Refusal :=
  .next (State.finishWith (regGet .gamma s) (unpackBytes s.cfg .gamma))

/-- GET.PAT_TRIGGER_MODE (R138). -/
def execGetPatTriggerMode (s : State) : Host.Outcome State Fault Refusal :=
  .next (State.finishWith (regGet .patTriggerMode s) (unpackBytes s.cfg .patTriggerMode))

/-- GET.PAT_DATA_SOURCE (R141). -/
def execGetPatDataSource (s : State) : Host.Outcome State Fault Refusal :=
  .next (State.finishWith (regGet .patDataSource s) (unpackBytes s.cfg .patDataSource))

/-- GET.PAT_SEQ_STATUS (R144). -/
def execGetPatSeqStatus (s : State) : Host.Outcome State Fault Refusal :=
  .next (State.finishWith (regGet .patSeqStatus s) (unpackBytes s.cfg .patSeqStatus))

/-- GET.PAT_PERIOD (R147): exposure and period, four bytes each; the timing is not checked. R147's `raw[0 .. 7]` is this under the
default layout; under another REGMAP the model unpacks the fields (DEDUCED, notes/assumptions/6.md). -/
def execGetPatPeriod (s : State) : Host.Outcome State Fault Refusal :=
  .next (State.finishWith (regGet .patPeriod s) fun raw =>
    (layoutUnpack (layoutOf s.cfg .patPeriod) raw).flatMap fieldWord)

/-- GET.PAT_CONFIG (R150). -/
def execGetPatConfig (s : State) : Host.Outcome State Fault Refusal :=
  .next (State.finishWith (regGet .patConfig s) (unpackBytes s.cfg .patConfig))

/-- GET.MBOX_MODE (R153). -/
def execGetMboxMode (s : State) : Host.Outcome State Fault Refusal :=
  .next (State.finishWith (regGet .mboxMode s) (unpackBytes s.cfg .mboxMode))

/-- GET.MBOX_OFFSET (R156), unpacked through its layout (DEDUCED, notes/assumptions/6.md). -/
def execGetMboxOffset (s : State) : Host.Outcome State Fault Refusal :=
  .next (State.finishWith (regGet .mboxOffset s) (unpackBytes s.cfg .mboxOffset))

/-- GET.VALIDATE (R159): the six fields, then isValid and isReady. R159 unpacks `[b]`, byte 0 of a register that is one byte wide
under the default layout. Under a REGMAP whose VALIDATE is wider R159 does not say what a field beyond byte 0 reads: the model
unpacks the whole register (DESIGN CHOICE, notes/assumptions/23.md). -/
def execGetValidate (s : State) : Host.Outcome State Fault Refusal :=
  .next (State.finishWith (regGet .validate s) fun raw =>
    unpackBytes s.cfg .validate raw
      ++ [boolByte (validationIsValid (layoutUnpack (layoutOf s.cfg .validate) raw)),
          boolByte (validationIsReady (layoutUnpack (layoutOf s.cfg .validate) raw))])

/-- GET.VERSION (R162): the version words in layout order, four bytes each. R162's 16 raw bytes are this under the default
layout; the layout is a parameter (R161, G24), and under another REGMAP the model unpacks the fields (DEDUCED,
notes/assumptions/6.md). -/
def execGetVersion (s : State) : Host.Outcome State Fault Refusal :=
  .next (State.finishWith (regGet .version s) fun raw =>
    (layoutUnpack (layoutOf s.cfg .version) raw).flatMap fieldWord)

/-- GET.FIRMWARE_TAG (R164): the length of the tag, then the tag. -/
def execGetFirmwareTag (s : State) : Host.Outcome State Fault Refusal :=
  .next (State.finishWith (regGet .firmwareTag s) fun t => le16 t.length ++ t)

/-- GET.HW_STATUS (R166): the status field, which is byte 0 under the default layout (R165), unpacked through its layout (DEDUCED,
notes/assumptions/6.md). -/
def execGetHwStatus (s : State) : Host.Outcome State Fault Refusal :=
  .next (State.finishWith (regGet .hwStatus s) (unpackBytes s.cfg .hwStatus))

/-- GET.SYS_STATUS (R168): the status field, which is byte 0 under the default layout (R167), unpacked through its layout (DEDUCED,
notes/assumptions/6.md). -/
def execGetSysStatus (s : State) : Host.Outcome State Fault Refusal :=
  .next (State.finishWith (regGet .sysStatus s) (unpackBytes s.cfg .sysStatus))

/-- GET.MAIN_STATUS (R170): the status field, which is byte 0 under the default layout (R169), unpacked through its layout
(DEDUCED, notes/assumptions/6.md). -/
def execGetMainStatus (s : State) : Host.Outcome State Fault Refusal :=
  .next (State.finishWith (regGet .mainStatus s) (unpackBytes s.cfg .mainStatus))

/-! ### SET -/

/-- SET.POWER_MODE (R118): an 8-bit field, no field check (R186; notes/assumptions/15.md). -/
def execSetPowerMode (mode : Byte) (s : State) : Host.Outcome State Fault Refusal :=
  .next (State.finish (packSet .powerMode [mode] s))

/-- SET.LED_ENABLE (R121). -/
def execSetLedEnable (red green blue seqCtrl : Byte) (s : State) : Host.Outcome State Fault Refusal :=
  .next (State.finish (checkedSet .ledEnable [red, green, blue, seqCtrl] s))

/-- SET.LED_CURRENT (R124): each channel inverted. -/
def execSetLedCurrent (red green blue : Byte) (s : State) : Host.Outcome State Fault Refusal :=
  .next (State.finish (regSet .ledCurrent [invertCurrent red, invertCurrent green, invertCurrent blue] s))

/-- SET.INPUT_SOURCE (R127). -/
def execSetInputSource (source portWidth : Byte) (s : State) : Host.Outcome State Fault Refusal :=
  .next (State.finish (checkedSet .inputSource [source, portWidth] s))

/-- SET.TEST_PATTERN (R130). -/
def execSetTestPattern (pattern : Byte) (s : State) : Host.Outcome State Fault Refusal :=
  .next (State.finish (checkedSet .testPattern [pattern] s))

/-- SET.DISPLAY_MODE (R133). -/
def execSetDisplayMode (mode : Byte) (s : State) : Host.Outcome State Fault Refusal :=
  .next (State.finish (checkedSet .displayMode [mode] s))

/-- SET.GAMMA (R136). -/
def execSetGamma (table enable : Byte) (s : State) : Host.Outcome State Fault Refusal :=
  .next (State.finish (checkedSet .gamma [table, enable] s))

/-- SET.PAT_TRIGGER_MODE (R139): an 8-bit field, no field check (R186; notes/assumptions/15.md). -/
def execSetPatTriggerMode (mode : Byte) (s : State) : Host.Outcome State Fault Refusal :=
  .next (State.finish (packSet .patTriggerMode [mode] s))

/-- SET.PAT_DATA_SOURCE (R142). -/
def execSetPatDataSource (source : Byte) (s : State) : Host.Outcome State Fault Refusal :=
  .next (State.finish (checkedSet .patDataSource [source] s))

/-- SET.PAT_SEQ_STATUS (R145). -/
def execSetPatSeqStatus (status : Byte) (s : State) : Host.Outcome State Fault Refusal :=
  .next (State.finish (checkedSet .patSeqStatus [status] s))

/-- SET.PAT_PERIOD (R148): the timing check before any transport event, then the pair. Under the default layout the bytes are
R148's `LE32(exposure) ++ LE32(period)`; the layout is a parameter (R146, D22), so the model packs through it, with no field
check (DEDUCED, notes/assumptions/6.md and 15.md). -/
def execSetPatPeriod (exposure period : Word32) (s : State) : Host.Outcome State Fault Refusal :=
  .next (if validTiming exposure period then
      State.finish (regSet .patPeriod (layoutPack (layoutOf s.cfg .patPeriod) [exposure.toNat, period.toNat]) s)
    else s.raise .pvPeriod [])

/-- SET.PAT_CONFIG (R151). -/
def execSetPatConfig (numLutEntriesM1 rpt numPatsTrigOut2M1 numImagesM1 : Byte) (s : State) :
    Host.Outcome State Fault Refusal :=
  .next (State.finish (checkedSet .patConfig [numLutEntriesM1, rpt, numPatsTrigOut2M1, numImagesM1] s))

/-- SET.MBOX_MODE (R154). -/
def execSetMboxMode (mode : Byte) (s : State) : Host.Outcome State Fault Refusal :=
  .next (State.finish (checkedSet .mboxMode [mode] s))

/-- SET.MBOX_OFFSET (R157): an 8-bit field, no field check (R186; notes/assumptions/15.md). -/
def execSetMboxOffset (offset : Byte) (s : State) : Host.Outcome State Fault Refusal :=
  .next (State.finish (packSet .mboxOffset [offset] s))

/-- SET.VALIDATE (R160): the command code and the trigger's parameter bytes, a parameter of the model that is empty by default
(D39). -/
def execSetValidate (s : State) : Host.Outcome State Fault Refusal :=
  .next (State.finish (regSet .validate s.cfg.validateParams s))

end Sys2Proof.Machine
end

