-- ==== Sys2Proof/Machine/Mailbox.lean ====
section
/-! DEFINITION. The mailbox sequencer (43_mailbox.md): LUT_UPLOAD. -/

namespace Sys2Proof.Machine

/-- The entries of the SEQ store as LUT bytes, in index order (R175, R40). -/
def lutBytes (s : State) : List Byte :=
  (List.range s.seqCount.toNat).flatMap fun i => le24 (s.seqWord i).toNat

/-- `LutDataMsg()` (R175). -/
def lutDataMsg (s : State) : Message := setMsg s.cfg .mboxData (lutBytes s)

/-- How far an upload has come: the step mask (R177), the first failure of steps 1 to 3, and the state. -/
structure Upload where
  mask : Byte
  first : Option Cause
  st : State
deriving DecidableEq, Repr

/-- Bit `i` of a step mask. -/
def maskBit (i : Nat) : Byte := BitVec.ofNat 8 (2 ^ i)

/-- The start of an upload. -/
def startUpload (s : State) : Upload := ⟨0, none, s⟩

/-- Step `i + 1`, for `i < 3` (R172): skipped once a step failed; otherwise it is issued, and `Try` catches what it raises. -/
def uploadStep (pos : MboxStep) (i : Nat) (run : State → Run (List Byte)) (u : Upload) : Upload :=
  match u.first with
  | some _ => u
  | none =>
    match run { u.st with mboxStep := pos } with
    | (.ok _, s') => ⟨u.mask ||| maskBit i ||| maskBit (4 + i), none, s'⟩
    | (.error c, s') => ⟨u.mask ||| maskBit i, some c, s'⟩

/-- Step 1 (R173): the message of SET.MBOX_MODE PATTERN. R172 writes `Set(MBOX_MODE, [2])` and R173 the message of
`SET.MBOX_MODE 2`, which R154 packs through the layout; under a REGMAP other than the default the two can differ. The model
takes R173's message, packed with no field check (DESIGN CHOICE, notes/assumptions/24.md). -/
def openMailbox (s : State) : Run (List Byte) := packSet .mboxMode [s.cfg.named.mboxPattern] s

/-- Step 2 (R174): the message of SET.MBOX_OFFSET 0, chosen as step 1's is (notes/assumptions/24.md). -/
def zeroOffset (s : State) : Run (List Byte) := packSet .mboxOffset [0] s

/-- Step 3 (R175): the store's entries in one message. -/
def sendLut (s : State) : Run (List Byte) := transact (lutDataMsg s) s

/-- Step 4 (R176): the message of SET.MBOX_MODE DISABLE, chosen as step 1's is (notes/assumptions/24.md). -/
def closeMailbox (s : State) : Run (List Byte) := packSet .mboxMode [s.cfg.named.mboxDisable] s

/-- Step 4 in its place (R176): issued whatever the steps before it returned; its own failure shows in the mask alone.
Which message it sends under another REGMAP is a DESIGN CHOICE (notes/assumptions/24.md). -/
def uploadClose (u : Upload) : Upload :=
  match closeMailbox { u.st with mboxStep := .close } with
  | (.ok _, s') => ⟨u.mask ||| maskBit 3 ||| maskBit 7, u.first, { s' with mboxStep := .idle }⟩
  | (.error _, s') => ⟨u.mask ||| maskBit 3, u.first, { s' with mboxStep := .idle }⟩

/-- The response of an upload (R172): the first failure of steps 1 to 3, or OK, with the step mask either way. -/
def finishUpload (u : Upload) : State :=
  match u.first with
  | none => u.st.succeed [u.mask]
  | some c => u.st.raise c [u.mask]

/-- The four steps in order (R173 to R176), each sending the message of its own rule where R172's raw bytes differ from it under
another REGMAP (DESIGN CHOICE, notes/assumptions/24.md). -/
def uploadSteps (s : State) : Upload :=
  uploadClose
    (uploadStep .data 2 sendLut
      (uploadStep .offset 1 zeroOffset
        (uploadStep .open 0 openMailbox (startUpload s))))

/-- LUT_UPLOAD (R172): an empty store is refused before any transport event. -/
def execLutUpload (s : State) : Host.Outcome State Fault Refusal :=
  .next (if s.seqCount = 0 then s.raise .pvEmptyLut [] else finishUpload (uploadSteps s))

end Sys2Proof.Machine
end

