-- ==== Sys2Proof/Machine/Pattern.lean ====
section
/-! DEFINITION. The pattern sequence store, the variable-exposure store and the packer (41_pattern.md). None of these
operations causes a transport event. -/

namespace Sys2Proof.Machine

/-! ### The pattern sequence store -/

/-- SEQ_CLEAR (R101): the count becomes 0; the timing is kept. -/
def execSeqClear (s : State) : Host.Outcome State Fault Refusal :=
  .next (({ s with seqCount := 0 }).succeed [])

/-- The entry joins the pattern sequence store (R102, from the MemWrite on). -/
def State.appendSeq (s : State) (p : Pattern) : State :=
  { s with
    seqEntry := Memory.write s.seqEntry s.seqCount.toNat (storedWord (admitted (s.seqCount == 0) p))
    seqCount := s.seqCount + 1 }

/-- SEQ_ADD (R102): the admission check, the capacity check, the append; the result is the entry's index. -/
def execSeqAdd (p : Pattern) (s : State) : Host.Outcome State Fault Refusal :=
  .next (match seqCheck p with
    | some c => s.raise c []
    | none =>
      if s.seqCount.toNat = Config.seqCap then s.raise .pvCapacity []
      else (s.appendSeq p).succeed [s.seqCount])

/-- SEQ_SET_TIMING (R103): any pair is stored. -/
def execSeqSetTiming (exposure period : Word32) (s : State) : Host.Outcome State Fault Refusal :=
  .next (({ s with seqExposure := exposure, seqPeriod := period }).succeed [])

/-- SEQ_READ (R104). -/
def execSeqRead (index : Half) (s : State) : Host.Outcome State Fault Refusal :=
  .next (if s.seqCount.toNat ≤ index.toNat then s.raise .pvIndex []
    else s.succeed (le24 (s.seqWord index.toNat).toNat))

/-- SEQ_STATUS (R105): the count, the exposure and the period. -/
def execSeqStatus (s : State) : Host.Outcome State Fault Refusal :=
  .next (s.succeed (s.seqCount :: (le32 s.seqExposure.toNat ++ le32 s.seqPeriod.toNat)))

/-! ### The variable-exposure store -/

/-- VX_CLEAR (R106). -/
def execVxClear (s : State) : Host.Outcome State Fault Refusal :=
  .next (({ s with vxCount := 0 }).succeed [])

/-- The triple joins the variable-exposure store (R107, from the write on). -/
def State.appendVx (s : State) (p : Pattern) (exposure period : Word32) : State :=
  { s with
    vxEntry := Memory.write s.vxEntry s.vxCount.toNat ⟨storedWord (admitted (s.vxCount == 0) p), exposure, period⟩
    vxCount := s.vxCount + 1 }

/-- VX_ADD (R107): the admission check, the capacity check, the append; the timing is not checked. -/
def execVxAdd (p : Pattern) (exposure period : Word32) (s : State) : Host.Outcome State Fault Refusal :=
  .next (match vxCheck p with
    | some c => s.raise c []
    | none =>
      if s.vxCount.toNat = Config.vxCap then s.raise .pvCapacity []
      else (s.appendVx p exposure period).succeed (le16 s.vxCount.toNat))

/-- VX_READ (R108). -/
def execVxRead (index : Half) (s : State) : Host.Outcome State Fault Refusal :=
  .next (if s.vxCount.toNat ≤ index.toNat then s.raise .pvIndex []
    else
      s.succeed (le24 (s.vxTriple index.toNat).word.toNat ++ le32 (s.vxTriple index.toNat).exposure.toNat
        ++ le32 (s.vxTriple index.toNat).period.toNat))

/-- VX_STATUS (R109): the count. -/
def execVxStatus (s : State) : Host.Outcome State Fault Refusal :=
  .next (s.succeed (le16 s.vxCount.toNat))

/-! ### The packer -/

/-- PAT_PACK (R110): the widths are checked, the stores' ranges are not. -/
def execPatPack (p : Pattern) (s : State) : Host.Outcome State Fault Refusal :=
  .next (if fitsWidth p then s.succeed (le24 (packPattern p).toNat) else s.raise .pvFieldRange [])

/-- PAT_UNPACK (R111). -/
def execPatUnpack (word : Word24) (s : State) : Host.Outcome State Fault Refusal :=
  .next (s.succeed (unpackPattern word).bytes)

end Sys2Proof.Machine
end

