-- ==== Sys2Proof/Machine/Dispatch.lean ====
section
/-! DEFINITION. Which meaning each operation has: one arm per constructor of `Instr`. -/

namespace Sys2Proof.Machine

def exec (i : Instr) (s : State) : Host.Outcome State Fault Refusal :=
  match i with
  | .msgWrite m => Sys2Proof.Machine.execMsgWrite m s
  | .msgRead => Sys2Proof.Machine.execMsgRead s
  | .msgTransact m => Sys2Proof.Machine.execMsgTransact m s
  | .getPowerMode => Sys2Proof.Machine.execGetPowerMode s
  | .getLedEnable => Sys2Proof.Machine.execGetLedEnable s
  | .getLedCurrent => Sys2Proof.Machine.execGetLedCurrent s
  | .getInputSource => Sys2Proof.Machine.execGetInputSource s
  | .getTestPattern => Sys2Proof.Machine.execGetTestPattern s
  | .getDisplayMode => Sys2Proof.Machine.execGetDisplayMode s
  | .getGamma => Sys2Proof.Machine.execGetGamma s
  | .getPatTriggerMode => Sys2Proof.Machine.execGetPatTriggerMode s
  | .getPatDataSource => Sys2Proof.Machine.execGetPatDataSource s
  | .getPatSeqStatus => Sys2Proof.Machine.execGetPatSeqStatus s
  | .getPatPeriod => Sys2Proof.Machine.execGetPatPeriod s
  | .getPatConfig => Sys2Proof.Machine.execGetPatConfig s
  | .getMboxMode => Sys2Proof.Machine.execGetMboxMode s
  | .getMboxOffset => Sys2Proof.Machine.execGetMboxOffset s
  | .getValidate => Sys2Proof.Machine.execGetValidate s
  | .getVersion => Sys2Proof.Machine.execGetVersion s
  | .getFirmwareTag => Sys2Proof.Machine.execGetFirmwareTag s
  | .getHwStatus => Sys2Proof.Machine.execGetHwStatus s
  | .getSysStatus => Sys2Proof.Machine.execGetSysStatus s
  | .getMainStatus => Sys2Proof.Machine.execGetMainStatus s
  | .setPowerMode v => Sys2Proof.Machine.execSetPowerMode v s
  | .setLedEnable red green blue seqCtrl => Sys2Proof.Machine.execSetLedEnable red green blue seqCtrl s
  | .setLedCurrent red green blue => Sys2Proof.Machine.execSetLedCurrent red green blue s
  | .setInputSource source portWidth => Sys2Proof.Machine.execSetInputSource source portWidth s
  | .setTestPattern v => Sys2Proof.Machine.execSetTestPattern v s
  | .setDisplayMode v => Sys2Proof.Machine.execSetDisplayMode v s
  | .setGamma table enable => Sys2Proof.Machine.execSetGamma table enable s
  | .setPatTriggerMode v => Sys2Proof.Machine.execSetPatTriggerMode v s
  | .setPatDataSource v => Sys2Proof.Machine.execSetPatDataSource v s
  | .setPatSeqStatus v => Sys2Proof.Machine.execSetPatSeqStatus v s
  | .setPatPeriod exposure period => Sys2Proof.Machine.execSetPatPeriod exposure period s
  | .setPatConfig n r t m => Sys2Proof.Machine.execSetPatConfig n r t m s
  | .setMboxMode v => Sys2Proof.Machine.execSetMboxMode v s
  | .setMboxOffset v => Sys2Proof.Machine.execSetMboxOffset v s
  | .setValidate => Sys2Proof.Machine.execSetValidate s
  | .seqClear => Sys2Proof.Machine.execSeqClear s
  | .seqAdd p => Sys2Proof.Machine.execSeqAdd p s
  | .seqSetTiming exposure period => Sys2Proof.Machine.execSeqSetTiming exposure period s
  | .seqRead index => Sys2Proof.Machine.execSeqRead index s
  | .seqStatus => Sys2Proof.Machine.execSeqStatus s
  | .lutUpload => Sys2Proof.Machine.execLutUpload s
  | .vxClear => Sys2Proof.Machine.execVxClear s
  | .vxAdd p exposure period => Sys2Proof.Machine.execVxAdd p exposure period s
  | .vxRead index => Sys2Proof.Machine.execVxRead index s
  | .vxStatus => Sys2Proof.Machine.execVxStatus s
  | .patPack p => Sys2Proof.Machine.execPatPack p s
  | .patUnpack word => Sys2Proof.Machine.execPatUnpack word s

end Sys2Proof.Machine
end

