-- ==== Sys2Proof/Machine/Step.lean ====
section
/-! DEFINITION. One step: the block takes the request at its port, decodes it and runs it to its response (R16, R46). While
the host has presented none, it waits and no state is lost (R196). -/

namespace Sys2Proof.Machine

/-- One step. A request the decoder refuses is answered with ILLEGAL_REQUEST (R183); that is a next state too. -/
def step (s : State) : Host.Outcome State Fault Refusal :=
  match s.takeRequest with
  | none => .next s
  | some (r, s') =>
    match decode r with
    | .ok i => exec i s'
    | .error e => .next (s'.refuseRequest e)

/-- The state with the instruction of an opcode-table word presented at the request port, so that the next step takes it. -/
def State.withFetchWord (s : State) (nbits w : Nat) : State := s.present (tableRequest nbits w)

end Sys2Proof.Machine
end

