-- ==== Sys2Proof/Laws/Bytes.lean ====
section
/-! SUPPORT. The little-endian helpers (R9): lengths and round trips. -/

namespace Sys2Proof

@[simp] theorem leBytes_length (n v : Nat) : (leBytes n v).length = n := by
  induction n generalizing v with
  | zero => rfl
  | succ n ih => simp [leBytes, ih]

@[simp] theorem le16_length (v : Nat) : (le16 v).length = 2 := leBytes_length 2 v
@[simp] theorem le24_length (v : Nat) : (le24 v).length = 3 := leBytes_length 3 v
@[simp] theorem le32_length (v : Nat) : (le32 v).length = 4 := leBytes_length 4 v

theorem le16_eq (v : Nat) : le16 v = [BitVec.ofNat 8 v, BitVec.ofNat 8 (v / 256)] := rfl

/-- Reading `n` little-endian bytes of `v` gives `v` modulo their width. -/
theorem leNat_leBytes (n v : Nat) : leNat (leBytes n v) = v % 256 ^ n := by
  induction n generalizing v with
  | zero => simp [leBytes, leNat, Nat.mod_one]
  | succ n ih =>
    have h : v % (256 * 256 ^ n) = v % 256 + 256 * (v / 256 % 256 ^ n) := Nat.mod_mul
    have h2 : (256 : Nat) ^ (n + 1) = 256 * 256 ^ n := Nat.pow_succ'
    have h3 : (BitVec.ofNat 8 v).toNat = v % 256 := BitVec.toNat_ofNat v 8
    rw [leBytes, leNat, ih, h2, h, h3]

/-- The number of a byte string is below its width. -/
theorem leNat_lt (bs : List Byte) : leNat bs < 256 ^ bs.length := by
  induction bs with
  | nil => simp [leNat]
  | cons b bs ih =>
    have := b.isLt
    simp only [leNat, List.length_cons, Nat.pow_succ]
    omega

/-- Writing back the number of a byte string gives the byte string. -/
theorem leBytes_leNat (bs : List Byte) : leBytes bs.length (leNat bs) = bs := by
  induction bs with
  | nil => rfl
  | cons b bs ih =>
    have hb := b.isLt
    have h : (b.toNat + 256 * leNat bs) / 256 = leNat bs := by omega
    have h2 : BitVec.ofNat 8 (b.toNat + 256 * leNat bs) = b := by
      apply BitVec.eq_of_toNat_eq
      simp only [BitVec.toNat_ofNat]
      omega
    simp only [List.length_cons, leNat, leBytes, h, ih, h2]

/-- `leNat` of a sum of strings. -/
theorem leNat_append (a b : List Byte) : leNat (a ++ b) = leNat a + 256 ^ a.length * leNat b := by
  induction a with
  | nil => simp [leNat]
  | cons x a ih =>
    simp only [List.cons_append, leNat, ih, List.length_cons, Nat.pow_succ]
    ring

theorem leNat_le16 (v : Nat) : leNat (le16 v) = v % 65536 := leNat_leBytes 2 v
theorem leNat_le24 (v : Nat) : leNat (le24 v) = v % 16777216 := leNat_leBytes 3 v
theorem leNat_le32 (v : Nat) : leNat (le32 v) = v % 4294967296 := leNat_leBytes 4 v

/-- The length field of a header reads back (R54). -/
theorem u16_header (f q : Byte) (v : Nat) (rest : List Byte) (h : v < 65536) :
    u16 (f :: q :: (le16 v ++ rest)) 2 = v := by
  have : ((f :: q :: (le16 v ++ rest)).drop 2).take 2 = le16 v := by
    simp [le16_eq]
  rw [u16, this, leNat_le16, Nat.mod_eq_of_lt h]

end Sys2Proof
end

