-- ==== Sys2Proof/Laws/PerInstr.lean ====
section
/-! SUPPORT. Statements about every instruction, one lemma a constructor. -/

namespace Sys2Proof.Laws.EncodedLength

/-- The request of a well-formed instruction begins with a defined op (R75), and its length is the one the op's format requires
(R76): one byte and the operands, or `5 + U16(request, 3)` for F_MSG. -/
def Statement (i : Instr) : Prop :=
  i.wellFormed = true → (formatOf ((encode i).headD 0)).isSome = true ∧ (encode i).length = requestLength (encode i)

/-- The length of the request of an envelope. -/
theorem envelope_length (op : Byte) (m : Envelope) (h : m.wellFormed = true)
    (hf : formatOf op = some .msg) :
    (formatOf ((op :: m.bytes).headD 0)).isSome = true ∧ (op :: m.bytes).length = requestLength (op :: m.bytes) := by
  have hl : m.payload.length < 65536 := by simpa [Envelope.wellFormed] using h
  have hu : u16 (op :: m.bytes) 3 = m.payload.length := by
    have := u16_header m.flags m.seq m.payload.length m.payload hl
    simpa [u16, Envelope.bytes] using this
  refine ⟨by simp [hf], ?_⟩
  simp only [requestLength, List.headD_cons, hf, Format.operandLength, hu]
  simp only [Envelope.bytes, List.length_cons, List.length_append, le16_length]
  omega

theorem msgWrite (m : Envelope) : Statement (.msgWrite m) := fun h => envelope_length 0x01 m h rfl
theorem msgRead : Statement .msgRead := fun _ => ⟨rfl, rfl⟩
theorem msgTransact (m : Envelope) : Statement (.msgTransact m) := fun h => envelope_length 0x03 m h rfl
theorem getPowerMode : Statement .getPowerMode := fun _ => ⟨rfl, rfl⟩
theorem getLedEnable : Statement .getLedEnable := fun _ => ⟨rfl, rfl⟩
theorem getLedCurrent : Statement .getLedCurrent := fun _ => ⟨rfl, rfl⟩
theorem getInputSource : Statement .getInputSource := fun _ => ⟨rfl, rfl⟩
theorem getTestPattern : Statement .getTestPattern := fun _ => ⟨rfl, rfl⟩
theorem getDisplayMode : Statement .getDisplayMode := fun _ => ⟨rfl, rfl⟩
theorem getGamma : Statement .getGamma := fun _ => ⟨rfl, rfl⟩
theorem getPatTriggerMode : Statement .getPatTriggerMode := fun _ => ⟨rfl, rfl⟩
theorem getPatDataSource : Statement .getPatDataSource := fun _ => ⟨rfl, rfl⟩
theorem getPatSeqStatus : Statement .getPatSeqStatus := fun _ => ⟨rfl, rfl⟩
theorem getPatPeriod : Statement .getPatPeriod := fun _ => ⟨rfl, rfl⟩
theorem getPatConfig : Statement .getPatConfig := fun _ => ⟨rfl, rfl⟩
theorem getMboxMode : Statement .getMboxMode := fun _ => ⟨rfl, rfl⟩
theorem getMboxOffset : Statement .getMboxOffset := fun _ => ⟨rfl, rfl⟩
theorem getValidate : Statement .getValidate := fun _ => ⟨rfl, rfl⟩
theorem getVersion : Statement .getVersion := fun _ => ⟨rfl, rfl⟩
theorem getFirmwareTag : Statement .getFirmwareTag := fun _ => ⟨rfl, rfl⟩
theorem getHwStatus : Statement .getHwStatus := fun _ => ⟨rfl, rfl⟩
theorem getSysStatus : Statement .getSysStatus := fun _ => ⟨rfl, rfl⟩
theorem getMainStatus : Statement .getMainStatus := fun _ => ⟨rfl, rfl⟩
theorem setPowerMode (v : _) : Statement (.setPowerMode v) := fun _ => ⟨rfl, rfl⟩
theorem setLedEnable (red : _) (green : _) (blue : _) (seqCtrl : _) : Statement (.setLedEnable red green blue seqCtrl) := fun _ => ⟨rfl, rfl⟩
theorem setLedCurrent (red : _) (green : _) (blue : _) : Statement (.setLedCurrent red green blue) := fun _ => ⟨rfl, rfl⟩
theorem setInputSource (source : _) (portWidth : _) : Statement (.setInputSource source portWidth) := fun _ => ⟨rfl, rfl⟩
theorem setTestPattern (v : _) : Statement (.setTestPattern v) := fun _ => ⟨rfl, rfl⟩
theorem setDisplayMode (v : _) : Statement (.setDisplayMode v) := fun _ => ⟨rfl, rfl⟩
theorem setGamma (table : _) (enable : _) : Statement (.setGamma table enable) := fun _ => ⟨rfl, rfl⟩
theorem setPatTriggerMode (v : _) : Statement (.setPatTriggerMode v) := fun _ => ⟨rfl, rfl⟩
theorem setPatDataSource (v : _) : Statement (.setPatDataSource v) := fun _ => ⟨rfl, rfl⟩
theorem setPatSeqStatus (v : _) : Statement (.setPatSeqStatus v) := fun _ => ⟨rfl, rfl⟩
theorem setPatPeriod (exposure : _) (period : _) : Statement (.setPatPeriod exposure period) := fun _ => ⟨rfl, rfl⟩
theorem setPatConfig (n : _) (r : _) (t : _) (m : _) : Statement (.setPatConfig n r t m) := fun _ => ⟨rfl, rfl⟩
theorem setMboxMode (v : _) : Statement (.setMboxMode v) := fun _ => ⟨rfl, rfl⟩
theorem setMboxOffset (v : _) : Statement (.setMboxOffset v) := fun _ => ⟨rfl, rfl⟩
theorem setValidate : Statement .setValidate := fun _ => ⟨rfl, rfl⟩
theorem seqClear : Statement .seqClear := fun _ => ⟨rfl, rfl⟩
theorem seqAdd (p : _) : Statement (.seqAdd p) := fun _ => ⟨rfl, rfl⟩
theorem seqSetTiming (exposure : _) (period : _) : Statement (.seqSetTiming exposure period) := fun _ => ⟨rfl, rfl⟩
theorem seqRead (index : _) : Statement (.seqRead index) := fun _ => ⟨rfl, rfl⟩
theorem seqStatus : Statement .seqStatus := fun _ => ⟨rfl, rfl⟩
theorem lutUpload : Statement .lutUpload := fun _ => ⟨rfl, rfl⟩
theorem vxClear : Statement .vxClear := fun _ => ⟨rfl, rfl⟩
theorem vxAdd (p : _) (exposure : _) (period : _) : Statement (.vxAdd p exposure period) := fun _ => ⟨rfl, rfl⟩
theorem vxRead (index : _) : Statement (.vxRead index) := fun _ => ⟨rfl, rfl⟩
theorem vxStatus : Statement .vxStatus := fun _ => ⟨rfl, rfl⟩
theorem patPack (p : _) : Statement (.patPack p) := fun _ => ⟨rfl, rfl⟩
theorem patUnpack (word : _) : Statement (.patUnpack word) := fun _ => ⟨rfl, rfl⟩

end Sys2Proof.Laws.EncodedLength
end

