-- ==== Sys2Proof/Machine/Assembler.lean ====
section
/-! DEFINITION. The textual syntax of requests (30_encoding.md rule R78) and the pseudo-instructions (R79). No step of the
machine uses this file: it says what a line of text stands for, as requests. -/

namespace Sys2Proof.Machine

/-! ### Words and numbers of a line -/

/-- The parts of a text between the characters `c`. -/
def splitText (c : Char) : List Char → List (List Char)
  | [] => [[]]
  | x :: xs =>
    if x = c then [] :: splitText c xs
    else
      match splitText c xs with
      | [] => [[x]]
      | w :: ws => (x :: w) :: ws

/-- A text without the blanks at its two ends. -/
def trimText (t : List Char) : List Char :=
  ((t.dropWhile (· == ' ')).reverse.dropWhile (· == ' ')).reverse

/-- The value of a digit, of base 16 at most. -/
def digitValue (c : Char) : Option Nat :=
  if '0' ≤ c ∧ c ≤ '9' then some (c.toNat - '0'.toNat)
  else if 'a' ≤ c ∧ c ≤ 'f' then some (c.toNat - 'a'.toNat + 10)
  else if 'A' ≤ c ∧ c ≤ 'F' then some (c.toNat - 'A'.toNat + 10)
  else none

/-- The number that digits of a base stand for after `acc`. -/
def readDigits (base : Nat) (acc : Nat) : List Char → Option Nat
  | [] => some acc
  | c :: cs =>
    match digitValue c with
    | some d => if d < base then readDigits base (base * acc + d) cs else none
    | none => none

/-- A number: decimal, or hexadecimal with `0x` (R78). -/
def readNumber : List Char → Option Nat
  | [] => none
  | '0' :: 'x' :: c :: cs => readDigits 16 0 (c :: cs)
  | c :: cs => readDigits 10 0 (c :: cs)

/-- A number that fits `w` bits. -/
def readBits (w : Nat) (t : List Char) : Option (BitVec w) :=
  match readNumber t with
  | some n => if n < 2 ^ w then some (BitVec.ofNat w n) else none
  | none => none

/-- One hexadecimal byte of two digits. -/
def readHexByte : List Char → Option Byte
  | [a, b] => (readDigits 16 0 [a, b]).map (BitVec.ofNat 8)
  | _ => none

/-- Hexadecimal bytes with blanks between them. -/
def readHexBytes (t : List Char) : Option (List Byte) :=
  ((splitText ' ' t).filter fun w => !w.isEmpty).mapM readHexByte

/-! ### Operands -/

/-- The operands of a line: what stands between the commas. -/
def operandsOf (t : List Char) : List (List Char) :=
  if (trimText t).isEmpty then [] else (splitText ',' t).map trimText

/-- An operand `key=value`. -/
def keyed (t : List Char) : Option (String × List Char) :=
  match splitText '=' t with
  | [k, v] => some (String.ofList (trimText k), trimText v)
  | _ => none

/-- Operands that are all `key=value`, with no key twice and none but those allowed. R78 lists the keys in one order and does not
say whether another may be used: the model takes them in any order (DESIGN CHOICE, notes/assumptions/17.md). -/
def keyedOperands (allowed : List String) (ops : List (List Char)) : Option (List (String × List Char)) :=
  match ops.mapM keyed with
  | some kvs =>
    if (kvs.all fun kv => allowed.contains kv.1) && decide (kvs.map Prod.fst).Nodup then some kvs else none
  | none => none

/-- A keyed number of `w` bits; an omitted one has its default, and one without a default must be given (R78). -/
def keyBits (w : Nat) (kvs : List (String × List Char)) (key : String) (dflt : Option (BitVec w)) : Option (BitVec w) :=
  match kvs.lookup key with
  | some t => readBits w t
  | none => dflt

/-- The keys of a pattern's operands. -/
def patternKeys : List String := ["trig", "idx", "depth", "led", "inv", "blk", "swap", "top"]

/-- A pattern from its keyed operands: `idx`, `depth` and `led` must be given, the others default to 0 (R78). -/
def patternOperand (kvs : List (String × List Char)) : Option Pattern := do
  let trig ← keyBits 8 kvs "trig" (some 0)
  let idx ← keyBits 8 kvs "idx" none
  let depth ← keyBits 8 kvs "depth" none
  let led ← keyBits 8 kvs "led" none
  let inv ← keyBits 8 kvs "inv" (some 0)
  let blk ← keyBits 8 kvs "blk" (some 0)
  let swap ← keyBits 8 kvs "swap" (some 0)
  let top ← keyBits 8 kvs "top" (some 0)
  return ⟨trig, idx, depth, led, inv, blk, swap, top⟩

/-- The `rw` operand: `W` or `R`. -/
def rwOperand (kvs : List (String × List Char)) : Option Rw :=
  match kvs.lookup "rw" with
  | some ['W'] => some .write
  | some ['R'] => some .read
  | _ => none

/-- A message from its keyed operands, with `reply` forced where it is given here: `rw` and `reply` must be given, and `err`,
`dest` and `seq` default to 0 (R78). R78 does not say whether `data` may be omitted: the model refuses a line without it (DESIGN
CHOICE, notes/assumptions/17.md). -/
def messageOperand (layout : FlagLayout) (reply : Option (BitVec 1)) (kvs : List (String × List Char)) :
    Option Envelope := do
  let rw ← rwOperand kvs
  let rep ← match reply with
    | some r => some r
    | none => keyBits 1 kvs "reply" none
  let err ← keyBits 1 kvs "err" (some 0)
  let dest ← keyBits 3 kvs "dest" (some 0)
  let seq ← keyBits 8 kvs "seq" (some 0)
  let text ← kvs.lookup "data"
  let data ← readHexBytes text
  return ⟨encodeFlags layout ⟨rw, rep == 1, err == 1, dest⟩, seq, data⟩

/-- The keys of a message's operands. -/
def messageKeys : List String := ["rw", "reply", "err", "dest", "seq", "data"]

/-- A line with no operands. -/
def lineNone (i : Instr) (ops : List (List Char)) : Option (List Instr) :=
  if ops.isEmpty then some [i] else none

/-- A line of one byte operand. -/
def lineReg8 (k : Byte → Instr) : List (List Char) → Option (List Instr)
  | [a] => (readBits 8 a).map fun v => [k v]
  | _ => none

/-- A line of two byte operands. -/
def lineTwo (k : Byte → Byte → Instr) : List (List Char) → Option (List Instr)
  | [a, b] => do return [k (← readBits 8 a) (← readBits 8 b)]
  | _ => none

/-- A line of three byte operands. -/
def lineThree (k : Byte → Byte → Byte → Instr) : List (List Char) → Option (List Instr)
  | [a, b, c] => do return [k (← readBits 8 a) (← readBits 8 b) (← readBits 8 c)]
  | _ => none

/-- A line of four byte operands. -/
def lineFour (k : Byte → Byte → Byte → Byte → Instr) : List (List Char) → Option (List Instr)
  | [a, b, c, d] => do return [k (← readBits 8 a) (← readBits 8 b) (← readBits 8 c) (← readBits 8 d)]
  | _ => none

/-- A line of an exposure and a period. -/
def linePeriod (k : Word32 → Word32 → Instr) : List (List Char) → Option (List Instr)
  | [a, b] => do return [k (← readBits 32 a) (← readBits 32 b)]
  | _ => none

/-- A line of one index. -/
def lineIndex (k : Half → Instr) : List (List Char) → Option (List Instr)
  | [a] => (readBits 16 a).map fun v => [k v]
  | _ => none

/-- A line of one packed word. -/
def lineWord (k : Word24 → Instr) : List (List Char) → Option (List Instr)
  | [a] => (readBits 24 a).map fun v => [k v]
  | _ => none

/-- A line of a pattern's operands. -/
def linePattern (k : Pattern → Instr) (ops : List (List Char)) : Option (List Instr) := do
  let kvs ← keyedOperands patternKeys ops
  return [k (← patternOperand kvs)]

/-- A line of a pattern's operands with `exp=` and `per=`. R78 puts these two neither among the operands that may be omitted nor
among those that must be given: the model refuses a line without either (DESIGN CHOICE, notes/assumptions/17.md). -/
def lineVx (ops : List (List Char)) : Option (List Instr) := do
  let kvs ← keyedOperands ("exp" :: "per" :: patternKeys) ops
  return [.vxAdd (← patternOperand kvs) (← keyBits 32 kvs "exp" none) (← keyBits 32 kvs "per" none)]

/-- A line of a message's operands. -/
def lineMessage (layout : FlagLayout) (reply : Option (BitVec 1)) (k : Envelope → Instr) (ops : List (List Char)) :
    Option (List Instr) := do
  let kvs ← keyedOperands messageKeys ops
  return [k (← messageOperand layout reply kvs)]

/-- `SEQ.LOAD p1; …; pn` (R79): SEQ_CLEAR, then a SEQ_ADD for each pattern. A line with no pattern, or with an empty part, is
refused (DESIGN CHOICE, notes/assumptions/17.md). -/
def lineLoad (t : List Char) : Option (List Instr) := do
  let adds ← (splitText ';' t).mapM fun p => linePattern .seqAdd (operandsOf p)
  return .seqClear :: adds.flatten

/-! ### A line -/

/-- The requests a mnemonic and its operands stand for (R78, R79). The values a pseudo-instruction names are REGMAP's. -/
def assembleOperands (cfg : Params) (mnemonic : String) (rest : List Char) : Option (List Instr) :=
  let ops := operandsOf rest
  match mnemonic with
  | "MSG.WRITE" => lineMessage cfg.flagLayout none .msgWrite ops
  | "MSG.READ" => lineNone .msgRead ops
  | "MSG.TRANSACT" => lineMessage cfg.flagLayout none .msgTransact ops
  | "GET.POWER_MODE" => lineNone .getPowerMode ops
  | "GET.LED_ENABLE" => lineNone .getLedEnable ops
  | "GET.LED_CURRENT" => lineNone .getLedCurrent ops
  | "GET.INPUT_SOURCE" => lineNone .getInputSource ops
  | "GET.TEST_PATTERN" => lineNone .getTestPattern ops
  | "GET.DISPLAY_MODE" => lineNone .getDisplayMode ops
  | "GET.GAMMA" => lineNone .getGamma ops
  | "GET.PAT_TRIGGER_MODE" => lineNone .getPatTriggerMode ops
  | "GET.PAT_DATA_SOURCE" => lineNone .getPatDataSource ops
  | "GET.PAT_SEQ_STATUS" => lineNone .getPatSeqStatus ops
  | "GET.PAT_PERIOD" => lineNone .getPatPeriod ops
  | "GET.PAT_CONFIG" => lineNone .getPatConfig ops
  | "GET.MBOX_MODE" => lineNone .getMboxMode ops
  | "GET.MBOX_OFFSET" => lineNone .getMboxOffset ops
  | "GET.VALIDATE" => lineNone .getValidate ops
  | "GET.VERSION" => lineNone .getVersion ops
  | "GET.FIRMWARE_TAG" => lineNone .getFirmwareTag ops
  | "GET.HW_STATUS" => lineNone .getHwStatus ops
  | "GET.SYS_STATUS" => lineNone .getSysStatus ops
  | "GET.MAIN_STATUS" => lineNone .getMainStatus ops
  | "SET.POWER_MODE" => lineReg8 .setPowerMode ops
  | "SET.LED_ENABLE" => lineFour .setLedEnable ops
  | "SET.LED_CURRENT" => lineThree .setLedCurrent ops
  | "SET.INPUT_SOURCE" => lineTwo .setInputSource ops
  | "SET.TEST_PATTERN" => lineReg8 .setTestPattern ops
  | "SET.DISPLAY_MODE" => lineReg8 .setDisplayMode ops
  | "SET.GAMMA" => lineTwo .setGamma ops
  | "SET.PAT_TRIGGER_MODE" => lineReg8 .setPatTriggerMode ops
  | "SET.PAT_DATA_SOURCE" => lineReg8 .setPatDataSource ops
  | "SET.PAT_SEQ_STATUS" => lineReg8 .setPatSeqStatus ops
  | "SET.PAT_PERIOD" => linePeriod .setPatPeriod ops
  | "SET.PAT_CONFIG" => lineFour .setPatConfig ops
  | "SET.MBOX_MODE" => lineReg8 .setMboxMode ops
  | "SET.MBOX_OFFSET" => lineReg8 .setMboxOffset ops
  | "SET.VALIDATE" => lineNone .setValidate ops
  | "SEQ.CLEAR" => lineNone .seqClear ops
  | "SEQ.ADD" => linePattern .seqAdd ops
  | "SEQ.TIMING" => linePeriod .seqSetTiming ops
  | "SEQ.READ" => lineIndex .seqRead ops
  | "SEQ.STATUS" => lineNone .seqStatus ops
  | "LUT.UPLOAD" => lineNone .lutUpload ops
  | "VX.CLEAR" => lineNone .vxClear ops
  | "VX.ADD" => lineVx ops
  | "VX.READ" => lineIndex .vxRead ops
  | "VX.STATUS" => lineNone .vxStatus ops
  | "PAT.PACK" => linePattern .patPack ops
  | "PAT.UNPACK" => lineWord .patUnpack ops
  -- pseudo-instructions (R79)
  | "PAT.STOP" => lineNone (.setPatSeqStatus cfg.named.patStop) ops
  | "PAT.PAUSE" => lineNone (.setPatSeqStatus cfg.named.patPause) ops
  | "PAT.START" => lineNone (.setPatSeqStatus cfg.named.patStart) ops
  | "MODE.VIDEO" => lineNone (.setDisplayMode cfg.named.displayVideo) ops
  | "MODE.PATTERN" => lineNone (.setDisplayMode cfg.named.displayPattern) ops
  | "MBOX.CLOSE" => lineNone (.setMboxMode cfg.named.mboxDisable) ops
  | "VALIDATE" => lineNone .setValidate ops
  | "SEQ.LOAD" => lineLoad rest
  | "MSG.SEND" => lineMessage cfg.flagLayout (some 0) .msgWrite ops
  | _ => none

/-- The requests one line of text stands for, under the parameters; `none` where the text is no line of R78 or R79. -/
def assemble (cfg : Params) (line : String) : Option (List Instr) :=
  let t := trimText line.toList
  assembleOperands cfg (String.ofList (t.takeWhile (· != ' '))) (t.dropWhile (· != ' '))

end Sys2Proof.Machine
end

