-- ==== Sys2Proof/Safety.lean ====
section
/-! DEFINITION. The terms the claims use: which parameters and states are legal, what a request leaves alone, and what the
adapter's answers must be for a transaction to go through. -/

namespace Sys2Proof.Machine

/-! ### Legal parameters -/

/-- A field lies within a register of `w` bytes. -/
def fieldInside (w : Nat) (f : BitField) : Bool := decide (f.lo ≤ f.hi ∧ 8 * f.byte + f.hi < 8 * w)

/-- Two fields share no bit. -/
def fieldsApart (f g : BitField) : Bool :=
  decide (fieldOffset f + fieldWidth f ≤ fieldOffset g ∨ fieldOffset g + fieldWidth g ≤ fieldOffset f)

/-- No two fields of a list share a bit. -/
def allApart : List BitField → Bool
  | [] => true
  | f :: fs => fs.all (fieldsApart f) && allApart fs

/-- A layout's fields lie within its register and share no bit (R115). -/
def layoutWf (l : Layout) : Bool :=
  l.fields.all (fieldInside (l.width.getD 0)) && allApart l.fields

/-- Every register of a register table. -/
def allRegs : List Reg :=
  [.powerMode, .ledEnable, .ledCurrent, .inputSource, .testPattern, .displayMode, .gamma, .patTriggerMode,
   .patDataSource, .patSeqStatus, .patPeriod, .patConfig, .mboxMode, .mboxOffset, .mboxData, .validate, .version,
   .firmwareTag, .hwStatus, .sysStatus, .mainStatus]

/-- Parameters R7 admits: `P ≥ 4`, and layouts in the sense of R115, each with a place for every field the register's rule
names (R116 to R169). -/
def paramsWf (cfg : Params) : Bool :=
  decide (4 ≤ cfg.p) && allRegs.all fun r =>
    layoutWf (layoutOf cfg r) && decide ((layoutOf cfg r).fields.length = (defaultLayout.get r).fields.length)

/-! ### The invariant -/

/-- The (status, cause) pairs R182 lists, with the pair of a success. -/
def legalCodes : List (Byte × Byte) :=
  [(0, 0), (1, 1), (1, 2), (2, 1), (2, 2), (2, 3), (2, 4), (3, 1),
   (5, 1), (5, 2), (5, 3), (5, 4), (5, 5), (5, 6), (5, 7), (5, 8), (5, 9), (5, 10), (6, 1), (6, 2)]

/-- A packed word an entry of a store may hold: `patternIndex` up to the store's largest index, `bitDepth` from 1 to 8,
`ledSelect` up to 7 (R97, R98, R112). -/
def wordLegal (maxIndex : Nat) (w : PatternWord) : Bool :=
  decide ((w.extractLsb' 2 6).toNat ≤ maxIndex ∧ 1 ≤ (w.extractLsb' 8 4).toNat ∧ (w.extractLsb' 8 4).toNat ≤ 8 ∧
    (w.extractLsb' 12 4).toNat ≤ 7)

/-- What holds between any two requests. -/
structure Inv (s : State) : Prop where
  /-- The parameters are legal. -/
  params : paramsWf s.cfg = true
  /-- MBOX_STEP is IDLE at every request boundary (R30). -/
  mboxIdle : s.mboxStep = .idle
  /-- LAST_STATUS and LAST_CAUSE are a pair of R182's table; LAST_CAUSE is 0 exactly when LAST_STATUS is (R22, R182). -/
  codes : (s.lastStatus, s.lastCause) ∈ legalCodes
  /-- They are those of the last response (R21, R22). -/
  mirrors : ∀ r, s.responses.getLast? = some r → r.take 2 = [s.lastStatus, s.lastCause]
  /-- SEQ_COUNT is at most 128 (R24). -/
  seqCount : s.seqCount.toNat ≤ Config.seqCap
  /-- The SEQ store is in canonical form, its indices below 128 (R23). -/
  seqWf : Memory.wf Config.seqCap s.seqEntry = true
  /-- Entries `0 .. SEQ_COUNT − 1` are defined (R23), each within the store's ranges (R112). -/
  seqLegal : ∀ i, i < s.seqCount.toNat → ∃ w, Memory.read s.seqEntry i = some w ∧ wordLegal Config.seqMaxIndex w = true
  /-- If `SEQ_COUNT ≥ 1` then `SEQ_ENTRY[0][18] = 1` (R112). -/
  seqFirst : 0 < s.seqCount.toNat → ∃ w, Memory.read s.seqEntry 0 = some w ∧ w.getLsbD 18 = true
  /-- VX_COUNT is at most 1824 (R27). -/
  vxCount : s.vxCount.toNat ≤ Config.vxCap
  /-- The VX store is in canonical form, its indices below 1824 (R26). -/
  vxWf : Memory.wf Config.vxCap s.vxEntry = true
  /-- Entries `0 .. VX_COUNT − 1` are defined (R26), each word within the store's ranges (R98). -/
  vxLegal : ∀ i, i < s.vxCount.toNat → ∃ e, Memory.read s.vxEntry i = some e ∧ wordLegal Config.vxMaxIndex e.word = true
  /-- If `VX_COUNT ≥ 1` then entry 0 has its buffer swap set (R112). -/
  vxFirst : 0 < s.vxCount.toNat → ∃ e, Memory.read s.vxEntry 0 = some e ∧ e.word.getLsbD 18 = true
  /-- TXBUF holds at most 516 bytes (R28). -/
  txbuf : s.txbuf.length ≤ txbufMax
  /-- RXBUF holds at most `N·P` bytes (R29). -/
  rxbuf : s.rxbuf.length ≤ rxbufMax s.cfg

/-! ### What a request leaves alone -/

/-- From `s` to `t` exactly one response was given, `response`; LAST_STATUS and LAST_CAUSE are its first two bytes (R17, R21,
R22); the parameters and the requests still to come are as they were. -/
def Answered (s t : State) (response : List Byte) : Prop :=
  t.responses = s.responses ++ [response] ∧ response.take 2 = [t.lastStatus, t.lastCause] ∧
    t.cfg = s.cfg ∧ t.requests = s.requests

/-- The pattern sequence store is as it was: entries, count and timing. -/
def SeqKept (s t : State) : Prop :=
  t.seqEntry = s.seqEntry ∧ t.seqCount = s.seqCount ∧ t.seqExposure = s.seqExposure ∧ t.seqPeriod = s.seqPeriod

/-- The variable-exposure store is as it was. -/
def VxKept (s t : State) : Prop := t.vxEntry = s.vxEntry ∧ t.vxCount = s.vxCount

/-- Both stores are as they were. -/
def StoresKept (s t : State) : Prop := SeqKept s t ∧ VxKept s t

/-- No transport event: the trace and the adapter's answers are as they were. -/
def NoTraffic (s t : State) : Prop :=
  t.trace = s.trace ∧ t.txAnswers = s.txAnswers ∧ t.rxAnswers = s.rxAnswers

/-- The request is answered by `response`, without a transport event, and neither store changes. -/
def AnsweredQuietly (s t : State) (response : List Byte) : Prop :=
  Answered s t response ∧ StoresKept s t ∧ NoTraffic s t

/-! ### A transaction that goes through -/

/-- What the adapter does in one transaction: a count for each packet written, and one buffer for each packet of a reply with
flag byte `flags`, sequence number `seq` and payload `payload`. -/
structure Exchange where
  counts : List Nat
  flags : Byte
  seq : Byte
  payload : List Byte
  bufs : List (List Byte)
deriving DecidableEq, Repr

/-- The adapter accepts every packet of a stream: one count for each, within the typing of R18. -/
def Accepts (cfg : Params) (stream : List Byte) (counts : List Nat) : Prop :=
  counts.length = packetCount cfg stream.length ∧ ∀ n ∈ counts, n ≤ Config.leadOut + cfg.p

/-- The buffers carry a reply (R57, R84): each has the length of R19, there are as many as the reply's length needs, and their
stream bytes begin with the reply's header and payload. -/
def Carries (cfg : Params) (bufs : List (List Byte)) (flags seq : Byte) (payload : List Byte) : Prop :=
  payload.length ≤ 512 ∧ bufs.length = packetCount cfg (4 + payload.length) ∧
    (∀ b ∈ bufs, b.length = cfg.inLead.val + cfg.p) ∧
    (bufs.flatMap (streamBytes cfg)).take (4 + payload.length) = flags :: seq :: (le16 payload.length ++ payload)

/-- A flag byte and a payload that `Transact` accepts (R85): no error flag, and not a read-type reply of length 0. -/
def Acceptable (cfg : Params) (flags : Byte) (payload : List Byte) : Prop :=
  (decodeFlags cfg.flagLayout flags).error = false ∧
    ¬ ((decodeFlags cfg.flagLayout flags).rw = .read ∧ payload = [])

/-- The adapter accepts the stream and carries a reply `Transact` accepts. -/
def Exchange.goesThrough (cfg : Params) (stream : List Byte) (x : Exchange) : Prop :=
  Accepts cfg stream x.counts ∧ Carries cfg x.bufs x.flags x.seq x.payload ∧ Acceptable cfg x.flags x.payload

/-- The transmit events of a stream the adapter accepts. -/
def sentEvents (cfg : Params) (stream : List Byte) (counts : List Nat) : List Event :=
  List.zipWith (fun buf n => Event.tx buf (.wrote n)) (packets cfg stream) counts

/-- The receive events of a reply. -/
def receivedEvents (bufs : List (List Byte)) : List Event := bufs.map fun b => Event.rx (.data b)

/-- The transport events of a transaction. -/
def Exchange.events (cfg : Params) (stream : List Byte) (x : Exchange) : List Event :=
  sentEvents cfg stream x.counts ++ receivedEvents x.bufs

/-- The adapter's answers of `s` start with those of the exchanges, in order, and `t` has the rest. -/
def AnswersUsed (s t : State) (xs : List Exchange) : Prop :=
  s.txAnswers = (xs.flatMap fun x => x.counts.map TxAnswer.wrote) ++ t.txAnswers ∧
    s.rxAnswers = (xs.flatMap fun x => x.bufs.map RxAnswer.data) ++ t.rxAnswers

/-- The stream a GET sends (R54, R58, R114): a read-type header with a reply requested, sequence number 0 and length 2, then
the register's command code. -/
def getStream (cfg : Params) (r : Reg) : List Byte :=
  encodeFlags cfg.flagLayout ⟨.read, true, false, cfg.dest.get r⟩ :: 0 :: 2 :: 0 :: le16 (cfg.cmd.get r).toNat

/-- The stream a SET sends (R54, R58, R114): a write-type header with a reply requested and sequence number 0, then the
register's command code and the parameter bytes. -/
def setStream (cfg : Params) (r : Reg) (raw : List Byte) : List Byte :=
  encodeFlags cfg.flagLayout ⟨.write, true, false, cfg.dest.get r⟩ :: 0 ::
    (le16 (2 + raw.length) ++ le16 (cfg.cmd.get r).toNat ++ raw)

/-- The stream MSG_WRITE and MSG_TRANSACT send for an envelope (R54, R81): the caller's fields and sequence number, the
reserved bits 0, the length of the payload, the payload. -/
def messageStream (cfg : Params) (m : Envelope) : List Byte :=
  encodeFlags cfg.flagLayout (decodeFlags cfg.flagLayout m.flags) :: m.seq :: (le16 m.payload.length ++ m.payload)

/-! ### A transaction, however it ends -/

/-- A receive answer that is no buffer, and the cause it raises (R86). -/
inductive ReceiveFailure : RxAnswer → Cause → Prop where
  | timeout : ReceiveFailure .timeout .toRead
  | error : ReceiveFailure .error .teRead

/-- One attempt of `Transact` at a stream (R83 to R86): its reply payload or the cause it raises, the adapter's answers it takes,
and the transport events it issues. -/
inductive Attempt (cfg : Params) (stream : List Byte) :
    Except Cause (List Byte) → List TxAnswer → List RxAnswer → List Event → Prop where
  /-- The adapter accepts every packet and carries an acceptable reply. -/
  | through (x : Exchange) (h : Exchange.goesThrough cfg stream x) :
      Attempt cfg stream (.ok x.payload) (x.counts.map .wrote) (x.bufs.map .data) (x.events cfg stream)
  /-- A packet is refused: the later ones are not sent, nothing is read, and the adapter is not closed (R83). -/
  | writeFails (counts : List Nat) (hl : counts.length < packetCount cfg stream.length)
      (ht : ∀ n ∈ counts, n ≤ Config.leadOut + cfg.p) :
      Attempt cfg stream (.error .teWrite) (counts.map .wrote ++ [.failed]) []
        (sentEvents cfg stream counts ++ [.tx (packet cfg stream counts.length) .failed])
  /-- A receive fails, at the first packet of the reply or at a continuation packet: the adapter is closed (R84, R86). -/
  | receiveFails (counts : List Nat) (bufs : List (List Byte)) (a : RxAnswer) (c : Cause)
      (hw : Accepts cfg stream counts) (ha : ReceiveFailure a c) (hb : ∀ b ∈ bufs, b.length = cfg.inLead.val + cfg.p)
      (hn : bufs = [] ∨ (u16 (bufs.flatMap (streamBytes cfg)) 2 ≤ 512 ∧
        bufs.length < packetCount cfg (4 + u16 (bufs.flatMap (streamBytes cfg)) 2))) :
      Attempt cfg stream (.error c) (counts.map .wrote) (bufs.map .data ++ [a])
        (sentEvents cfg stream counts ++ receivedEvents bufs ++ [.rx a, .close])
  /-- The reply's length field is above 512: no further packet is read (R84). -/
  | lengthRefused (counts : List Nat) (buf : List Byte) (hw : Accepts cfg stream counts)
      (hb : buf.length = cfg.inLead.val + cfg.p) (hl : 512 < u16 (streamBytes cfg buf) 2) :
      Attempt cfg stream (.error .peLength) (counts.map .wrote) [.data buf]
        (sentEvents cfg stream counts ++ [.rx (.data buf)])
  /-- The reply has its error flag set (R85). -/
  | nack (x : Exchange) (hw : Accepts cfg stream x.counts) (hr : Carries cfg x.bufs x.flags x.seq x.payload)
      (he : (decodeFlags cfg.flagLayout x.flags).error = true) :
      Attempt cfg stream (.error .peNack) (x.counts.map .wrote) (x.bufs.map .data) (x.events cfg stream)
  /-- The reply is read-type, without the error flag, and of length 0 (R85). -/
  | empty (x : Exchange) (hw : Accepts cfg stream x.counts) (hr : Carries cfg x.bufs x.flags x.seq x.payload)
      (he : (decodeFlags cfg.flagLayout x.flags).error = false) (hd : (decodeFlags cfg.flagLayout x.flags).rw = .read)
      (hp : x.payload = []) :
      Attempt cfg stream (.error .peEmpty) (x.counts.map .wrote) (x.bufs.map .data) (x.events cfg stream)

/-- The status and cause codes of a failure, as a response without a result (R184). -/
def failureCodes (c : Cause) : List Byte := [Status.code (Cause.status c), Cause.code c]

/-- A request ended with `response`, with MBOX_STEP idle, both stores kept, and exactly these events and answers of the adapter. -/
def EndedIdle (s t : State) (response : List Byte) (events : List Event) (txRest : List TxAnswer)
    (rxRest : List RxAnswer) : Prop :=
  Answered s t response ∧ StoresKept s t ∧ t.mboxStep = .idle ∧ t.trace = s.trace ++ events ∧
    t.txAnswers = txRest ∧ t.rxAnswers = rxRest

/-- The end of a transaction that went through: the response, the stores kept, MBOX_STEP kept, and exactly the events and the
answers of the exchange. -/
def Transacted (s t : State) (stream : List Byte) (x : Exchange) (response : List Byte) : Prop :=
  Answered s t response ∧ StoresKept s t ∧ t.mboxStep = s.mboxStep ∧
    t.trace = s.trace ++ Exchange.events s.cfg stream x

/-- A GET completes: whatever the parameters, when the adapter accepts its message and carries an acceptable reply that is at
least as long as the register, it answers OK with `result` of the register's bytes. -/
def GetCompletes (i : Instr) (r : Reg) (result : Params → List Byte → List Byte) : Prop :=
  ∀ (s : State) (x : Exchange) (txRest : List TxAnswer) (rxRest : List RxAnswer),
    4 ≤ s.cfg.p → Exchange.goesThrough s.cfg (getStream s.cfg r) x →
    s.txAnswers = x.counts.map TxAnswer.wrote ++ txRest → s.rxAnswers = x.bufs.map RxAnswer.data ++ rxRest →
    (∀ w, (layoutOf s.cfg r).width = some w → w ≤ x.payload.length) →
    ∃ t, exec i s = .next t ∧
      Transacted s t (getStream s.cfg r) x
        (0 :: 0 :: result s.cfg
          (match (layoutOf s.cfg r).width with
            | some w => x.payload.take w
            | none => x.payload)) ∧
      t.txAnswers = txRest ∧ t.rxAnswers = rxRest

/-- A SET completes: whatever the parameters, when `ok` holds, the parameter bytes fit a message, the adapter accepts it and
carries an acceptable reply, it answers OK with no result. -/
def SetCompletes (i : Instr) (r : Reg) (raw : Params → List Byte) (ok : Params → Prop) : Prop :=
  ∀ (s : State) (x : Exchange) (txRest : List TxAnswer) (rxRest : List RxAnswer),
    4 ≤ s.cfg.p → ok s.cfg → 2 + (raw s.cfg).length ≤ 512 →
    Exchange.goesThrough s.cfg (setStream s.cfg r (raw s.cfg)) x →
    s.txAnswers = x.counts.map TxAnswer.wrote ++ txRest → s.rxAnswers = x.bufs.map RxAnswer.data ++ rxRest →
    ∃ t, exec i s = .next t ∧ Transacted s t (setStream s.cfg r (raw s.cfg)) x [0, 0] ∧
      t.txAnswers = txRest ∧ t.rxAnswers = rxRest

/-- A request is refused before any transport event with status 5 and a cause (R184, R185). -/
def RefusedWith (i : Instr) (s : State) (cause : Byte) : Prop :=
  ∃ t, exec i s = .next t ∧ AnsweredQuietly s t [5, cause] ∧ t.mboxStep = .idle

/-! ### The messages of LUT_UPLOAD -/

/-- The words of the SEQ store as LUT bytes, three bytes an entry, in index order (R40, R175). -/
def lutPayload (s : State) : List Byte :=
  (List.range s.seqCount.toNat).flatMap fun i => le24 (s.seqWord i).toNat

/-- Step 1's parameter bytes (R173): MBOX_MODE with the value REGMAP gives PATTERN (notes/assumptions/24.md). -/
def openBytes (cfg : Params) : List Byte := layoutPack (layoutOf cfg .mboxMode) [cfg.named.mboxPattern.toNat]

/-- Step 2's parameter bytes (R174): MBOX_OFFSET 0. -/
def offsetBytes (cfg : Params) : List Byte := layoutPack (layoutOf cfg .mboxOffset) [0]

/-- Step 4's parameter bytes (R176): MBOX_MODE with the value REGMAP gives DISABLE (notes/assumptions/24.md). -/
def closeBytes (cfg : Params) : List Byte := layoutPack (layoutOf cfg .mboxMode) [cfg.named.mboxDisable.toNat]

/-- The stream of step 1. -/
def openStream (cfg : Params) : List Byte := setStream cfg .mboxMode (openBytes cfg)

/-- The stream of step 2. -/
def offsetStream (cfg : Params) : List Byte := setStream cfg .mboxOffset (offsetBytes cfg)

/-- The stream of step 3 (R175). -/
def lutStream (s : State) : List Byte := setStream s.cfg .mboxData (lutPayload s)

/-- The stream of step 4. -/
def closeStream (cfg : Params) : List Byte := setStream cfg .mboxMode (closeBytes cfg)

/-- The messages of steps 1, 2 and 4 carry at most 512 payload bytes, as they do for every layout of at most 510 bytes. -/
def MailboxFits (cfg : Params) : Prop :=
  2 + (openBytes cfg).length ≤ 512 ∧ 2 + (offsetBytes cfg).length ≤ 512 ∧ 2 + (closeBytes cfg).length ≤ 512

/-- The step mask by step 4's outcome. -/
def closing (r : Except Cause (List Byte)) (closed failed : Byte) : Byte :=
  match r with
  | .ok _ => closed
  | .error _ => failed

/-- The rows of R177's table: what the transactions of the issued steps give in turn, whatever the adapter answers; the first
failure among steps 1 to 3, the step mask, and the state after step 4's transaction. -/
inductive UploadRow (s : State) : Option Cause → Byte → State → Prop where
  /-- Steps 1 to 3 succeed. -/
  | succeeds {p1 p2 p3 : List Byte} {r4 : Except Cause (List Byte)} {u1 u2 u3 u4 : State}
      (h1 : transact (setMsg s.cfg .mboxMode (openBytes s.cfg)) { s with mboxStep := .open } = (.ok p1, u1))
      (h2 : transact (setMsg s.cfg .mboxOffset (offsetBytes s.cfg)) { u1 with mboxStep := .offset } = (.ok p2, u2))
      (h3 : transact (setMsg s.cfg .mboxData (lutPayload s)) { u2 with mboxStep := .data } = (.ok p3, u3))
      (h4 : transact (setMsg s.cfg .mboxMode (closeBytes s.cfg)) { u3 with mboxStep := .close } = (r4, u4)) :
      UploadRow s none (closing r4 0xFF 0x7F) u4
  /-- Step 3 fails. -/
  | dataFails {p1 p2 : List Byte} {c : Cause} {r4 : Except Cause (List Byte)} {u1 u2 u3 u4 : State}
      (h1 : transact (setMsg s.cfg .mboxMode (openBytes s.cfg)) { s with mboxStep := .open } = (.ok p1, u1))
      (h2 : transact (setMsg s.cfg .mboxOffset (offsetBytes s.cfg)) { u1 with mboxStep := .offset } = (.ok p2, u2))
      (h3 : transact (setMsg s.cfg .mboxData (lutPayload s)) { u2 with mboxStep := .data } = (.error c, u3))
      (h4 : transact (setMsg s.cfg .mboxMode (closeBytes s.cfg)) { u3 with mboxStep := .close } = (r4, u4)) :
      UploadRow s (some c) (closing r4 0xBF 0x3F) u4
  /-- Step 2 fails; step 3 is not issued. -/
  | offsetFails {p1 : List Byte} {c : Cause} {r4 : Except Cause (List Byte)} {u1 u2 u4 : State}
      (h1 : transact (setMsg s.cfg .mboxMode (openBytes s.cfg)) { s with mboxStep := .open } = (.ok p1, u1))
      (h2 : transact (setMsg s.cfg .mboxOffset (offsetBytes s.cfg)) { u1 with mboxStep := .offset } = (.error c, u2))
      (h4 : transact (setMsg s.cfg .mboxMode (closeBytes s.cfg)) { u2 with mboxStep := .close } = (r4, u4)) :
      UploadRow s (some c) (closing r4 0x9B 0x1B) u4
  /-- Step 1 fails; steps 2 and 3 are not issued. -/
  | openFails {c : Cause} {r4 : Except Cause (List Byte)} {u1 u4 : State}
      (h1 : transact (setMsg s.cfg .mboxMode (openBytes s.cfg)) { s with mboxStep := .open } = (.error c, u1))
      (h4 : transact (setMsg s.cfg .mboxMode (closeBytes s.cfg)) { u1 with mboxStep := .close } = (r4, u4)) :
      UploadRow s (some c) (closing r4 0x89 0x09) u4

/-- The response of LUT_UPLOAD (R172): OK or the first failure's codes, then the step mask. -/
def uploadResponse (first : Option Cause) (mask : Byte) : List Byte :=
  match first with
  | none => [0, 0, mask]
  | some c => failureCodes c ++ [mask]

/-! ### Lists of events -/

/-- The buffers a list of events offered to the adapter, in order. -/
def txBuffers : List Event → List (List Byte)
  | [] => []
  | .tx buf _ :: es => buf :: txBuffers es
  | .rx _ :: es => txBuffers es
  | .close :: es => txBuffers es

/-- The receive events of a list, counted. -/
def rxCount : List Event → Nat
  | [] => 0
  | .tx _ _ :: es => rxCount es
  | .rx _ :: es => rxCount es + 1
  | .close :: es => rxCount es

/-! ### Groups of operations -/

/-- The operations that issue transport events (R204): MSG_*, GET.*, SET.* and LUT_UPLOAD. -/
def transportOp : Instr → Bool
  | .msgWrite _ | .msgRead | .msgTransact _ => true
  | .getPowerMode | .getLedEnable | .getLedCurrent | .getInputSource | .getTestPattern | .getDisplayMode | .getGamma
  | .getPatTriggerMode | .getPatDataSource | .getPatSeqStatus | .getPatPeriod | .getPatConfig | .getMboxMode
  | .getMboxOffset | .getValidate | .getVersion | .getFirmwareTag | .getHwStatus | .getSysStatus
  | .getMainStatus => true
  | .setPowerMode _ | .setLedEnable _ _ _ _ | .setLedCurrent _ _ _ | .setInputSource _ _ | .setTestPattern _
  | .setDisplayMode _ | .setGamma _ _ | .setPatTriggerMode _ | .setPatDataSource _ | .setPatSeqStatus _
  | .setPatPeriod _ _ | .setPatConfig _ _ _ _ | .setMboxMode _ | .setMboxOffset _ | .setValidate => true
  | .lutUpload => true
  | .seqClear | .seqAdd _ | .seqSetTiming _ _ | .seqRead _ | .seqStatus => false
  | .vxClear | .vxAdd _ _ _ | .vxRead _ | .vxStatus => false
  | .patPack _ | .patUnpack _ => false

/-- The GET operation of a register (R75); `none` for the mailbox data register, which has none (R180). -/
def getOf : Reg → Option Instr
  | .powerMode => some .getPowerMode
  | .ledEnable => some .getLedEnable
  | .ledCurrent => some .getLedCurrent
  | .inputSource => some .getInputSource
  | .testPattern => some .getTestPattern
  | .displayMode => some .getDisplayMode
  | .gamma => some .getGamma
  | .patTriggerMode => some .getPatTriggerMode
  | .patDataSource => some .getPatDataSource
  | .patSeqStatus => some .getPatSeqStatus
  | .patPeriod => some .getPatPeriod
  | .patConfig => some .getPatConfig
  | .mboxMode => some .getMboxMode
  | .mboxOffset => some .getMboxOffset
  | .mboxData => none
  | .validate => some .getValidate
  | .version => some .getVersion
  | .firmwareTag => some .getFirmwareTag
  | .hwStatus => some .getHwStatus
  | .sysStatus => some .getSysStatus
  | .mainStatus => some .getMainStatus

/-- What a SET sends and when: its register, its parameter bytes, and the check its operands must pass first. -/
structure SetForm where
  reg : Reg
  raw : Params → List Byte
  ok : Params → Bool

/-- A SET that packs its operands after the field check (R115). -/
def SetForm.checked (r : Reg) (v : List Nat) : SetForm :=
  ⟨r, fun cfg => layoutPack (layoutOf cfg r) v, fun cfg => layoutFits (layoutOf cfg r) v⟩

/-- A SET that packs its operands with no field check (R186; notes/assumptions/15.md). -/
def SetForm.unchecked (r : Reg) (v : List Nat) : SetForm :=
  ⟨r, fun cfg => layoutPack (layoutOf cfg r) v, fun _ => true⟩

/-- The form of each SET (R118 to R160); `none` for the other operations. Which go through REGMAP's layout, and which are checked
against it, is the model's reading (DEDUCED, notes/assumptions/6.md, 15.md). -/
def setForm : Instr → Option SetForm
  | .setPowerMode mode => some (.unchecked .powerMode [mode.toNat])
  | .setLedEnable r g b q => some (.checked .ledEnable [r.toNat, g.toNat, b.toNat, q.toNat])
  | .setLedCurrent r g b => some ⟨.ledCurrent, fun _ => [255 - r, 255 - g, 255 - b], fun _ => true⟩
  | .setInputSource a w => some (.checked .inputSource [a.toNat, w.toNat])
  | .setTestPattern v => some (.checked .testPattern [v.toNat])
  | .setDisplayMode v => some (.checked .displayMode [v.toNat])
  | .setGamma a e => some (.checked .gamma [a.toNat, e.toNat])
  | .setPatTriggerMode v => some (.unchecked .patTriggerMode [v.toNat])
  | .setPatDataSource v => some (.checked .patDataSource [v.toNat])
  | .setPatSeqStatus v => some (.checked .patSeqStatus [v.toNat])
  | .setPatPeriod exposure period =>
    some ⟨.patPeriod, fun cfg => layoutPack (layoutOf cfg .patPeriod) [exposure.toNat, period.toNat],
      fun _ => decide (exposure.toNat ≤ period.toNat ∧ 230 < period.toNat - exposure.toNat)⟩
  | .setPatConfig n r k m => some (.checked .patConfig [n.toNat, r.toNat, k.toNat, m.toNat])
  | .setMboxMode v => some (.checked .mboxMode [v.toNat])
  | .setMboxOffset v => some (.unchecked .mboxOffset [v.toNat])
  | .setValidate => some ⟨.validate, fun cfg => cfg.validateParams, fun _ => true⟩
  | .msgWrite _ | .msgRead | .msgTransact _ => none
  | .getPowerMode | .getLedEnable | .getLedCurrent | .getInputSource | .getTestPattern | .getDisplayMode | .getGamma
  | .getPatTriggerMode | .getPatDataSource | .getPatSeqStatus | .getPatPeriod | .getPatConfig | .getMboxMode
  | .getMboxOffset | .getValidate | .getVersion | .getFirmwareTag | .getHwStatus | .getSysStatus
  | .getMainStatus => none
  | .seqClear | .seqAdd _ | .seqSetTiming _ _ | .seqRead _ | .seqStatus | .lutUpload => none
  | .vxClear | .vxAdd _ _ _ | .vxRead _ | .vxStatus => none
  | .patPack _ | .patUnpack _ => none

/-- The undefined op values of R77. -/
def undefinedOp (op : Byte) : Prop :=
  op.toNat = 0x00 ∨ (0x04 ≤ op.toNat ∧ op.toNat ≤ 0x3F) ∨ op.toNat = 0x4E ∨ (0x55 ≤ op.toNat ∧ op.toNat ≤ 0x7F) ∨
    op.toNat = 0x8E ∨ (0x90 ≤ op.toNat ∧ op.toNat ≤ 0xBF) ∨ op.toNat = 0xC6 ∨ op.toNat = 0xC7 ∨
    (0xCC ≤ op.toNat ∧ op.toNat ≤ 0xCF) ∨ (0xD2 ≤ op.toNat ∧ op.toNat ≤ 0xFF)

/-- The request at the port is taken and refused with ILLEGAL_REQUEST and a cause: nothing changes but the response,
LAST_STATUS and LAST_CAUSE, and MBOX_STEP is IDLE (R183, R184). -/
def IllegalRequest (s t : State) (rest : List (List Byte)) (cause : Byte) : Prop :=
  t.requests = rest ∧ t.responses = s.responses ++ [[6, cause]] ∧ t.lastStatus = 6 ∧ t.lastCause = cause ∧
    t.cfg = s.cfg ∧ StoresKept s t ∧ NoTraffic s t ∧ t.mboxStep = .idle

end Sys2Proof.Machine
end

