-- ==== Sys2Proof/Certificates/Slice0/Obligations.lean ====
section
/-! DEFINITION. The statements for the provers, one definition each. A statement whose docstring names a log entry rests on that
entry's choice. -/

open Sys2Proof Sys2Proof.Machine

/-! ### Encoding -/

/-- Every well-formed request decodes to itself: no operand bit is dropped (R60 to R76). -/
def Obligations.DecodeOfEncode : Prop :=
  ∀ i : Instr, i.wellFormed = true → decode (encode i) = .ok i

/-- A request that decodes is the encoding of what it decodes to, and that is well formed: each byte string has one meaning. -/
def Obligations.EncodeOfDecode : Prop :=
  ∀ (r : List Byte) (i : Instr), decode r = .ok i → encode i = r ∧ i.wellFormed = true

/-- The operand lengths of the formats in bytes, and the length of every well-formed request: its op is defined and its format
requires exactly that length, `5 + U16(request, 3)` for F_MSG (R61 to R73, R76). -/
def Obligations.RequestLengths : Prop :=
  (Format.none.operandLength = some 0 ∧ Format.reg8.operandLength = some 1 ∧ Format.leden.operandLength = some 4 ∧
    Format.insrc.operandLength = some 2 ∧ Format.gamma.operandLength = some 2 ∧ Format.ledcur.operandLength = some 3 ∧
    Format.period.operandLength = some 8 ∧ Format.patcfg.operandLength = some 4 ∧
    Format.pattern.operandLength = some 8 ∧ Format.vx.operandLength = some 16 ∧ Format.index.operandLength = some 2 ∧
    Format.word3.operandLength = some 3 ∧ Format.msg.operandLength = Option.none) ∧
  ∀ i : Instr, Laws.EncodedLength.Statement i

/-- Requests written out from the operation map and the operand formats decode to what they stand for. -/
def Obligations.SampleRequestsDecode : Prop :=
  decode [0x01, 0x02, 0x07, 0x02, 0x00, 0xAA, 0xBB] = .ok (.msgWrite ⟨0x02, 0x07, [0xAA, 0xBB]⟩) ∧
    decode [0x45] = .ok .getDisplayMode ∧
    decode [0x81, 0x01, 0x00, 0x01, 0x00] = .ok (.setLedEnable 1 0 1 0) ∧
    decode [0x8A, 0x41, 0x22, 0x00, 0x00, 0x28, 0x23, 0x00, 0x00] = .ok (.setPatPeriod 8769 9000) ∧
    decode [0xC1, 0x03, 0x18, 0x08, 0x07, 0x01, 0x00, 0x01, 0x00] = .ok (.seqAdd ⟨3, 24, 8, 7, 1, 0, 1, 0⟩) ∧
    decode [0xC9, 0x00, 0x19, 0x01, 0x07, 0x00, 0x00, 0x00, 0x00, 0xE8, 0x03, 0x00, 0x00, 0xD0, 0x07, 0x00, 0x00]
      = .ok (.vxAdd ⟨0, 25, 1, 7, 0, 0, 0, 0⟩ 1000 2000) ∧
    decode [0xCA, 0x34, 0x12] = .ok (.vxRead 0x1234) ∧
    decode [0xD1, 0x56, 0x34, 0x12] = .ok (.patUnpack 0x123456) ∧
    decode [0xC5] = .ok .lutUpload

/-! ### The step -/

/-- A step takes the request at the port; where it decodes to an instruction, the step is `exec` of that instruction at the
state with the request taken, and nothing else. -/
def Obligations.StepRunsDecodedRequest : Prop :=
  ∀ (s : State) (r : List Byte) (rest : List (List Byte)) (i : Instr),
    s.requests = r :: rest → decode r = .ok i → step s = exec i { s with requests := rest }

/-- While the host has presented no request, a step changes nothing (R196: no state is lost while the block waits). That
waiting is a step is the model's choice (notes/assumptions/2.md). -/
def Obligations.StepWaitsForRequest : Prop :=
  ∀ s : State, s.requests = [] → step s = .next s

/-- A request with an undefined op value is refused with ILLEGAL_REQUEST(IR_OPCODE), whatever follows the op byte. -/
def Obligations.UndefinedOpRefused : Prop :=
  ∀ (s : State) (op : Byte) (operands : List Byte) (rest : List (List Byte)),
    s.requests = (op :: operands) :: rest → undefinedOp op → ∃ t, step s = .next t ∧ IllegalRequest s t rest 1

/-- A request whose op is defined and whose length is not the one its format requires is refused with
ILLEGAL_REQUEST(IR_LENGTH), and so is the empty request. -/
def Obligations.WrongLengthRefused : Prop :=
  ∀ (s : State) (r : List Byte) (rest : List (List Byte)), s.requests = r :: rest →
    (r = [] ∨ ∃ op operands, r = op :: operands ∧ ¬ undefinedOp op ∧ r.length ≠ requestLength r) →
    ∃ t, step s = .next t ∧ IllegalRequest s t rest 2

/-- Every request is answered: the step gives a next state with exactly one response more, LAST_STATUS and LAST_CAUSE are its
first two bytes and a pair of R182's table, the request is taken, and the trace only grows. -/
def Obligations.EveryRequestAnswered : Prop :=
  ∀ (s : State) (r : List Byte) (rest : List (List Byte)), s.requests = r :: rest →
    ∃ t response, step s = .next t ∧ t.requests = rest ∧ t.responses = s.responses ++ [response] ∧
      response.take 2 = [t.lastStatus, t.lastCause] ∧ (t.lastStatus, t.lastCause) ∈ legalCodes ∧
      (t.lastCause = 0 ↔ t.lastStatus = 0) ∧ ∃ events, t.trace = s.trace ++ events

/-! ### Invariants -/

/-- Every step keeps the invariant, from every state that meets it. -/
def Obligations.InvariantKept : Prop :=
  ∀ s t : State, Inv s → step s = .next t → Inv t

/-- The invariant holds at reset. Its clause on the parameters rests on their defaults (notes/assumptions/4.md), and its clauses on
the sizes of TXBUF and RXBUF on the model's choice that both are empty at reset (notes/assumptions/9.md): the spec gives them no
value there (R28, R29). -/
def Obligations.InvariantAtReset : Prop := Inv State.reset

/-- No step changes the parameters (R203). -/
def Obligations.ParametersFixed : Prop :=
  ∀ s t : State, step s = .next t → t.cfg = s.cfg

/-- No request is answered with status 4, RETRY_EXHAUSTED (R197). -/
def Obligations.RetryExhaustedNeverRaised : Prop :=
  ∀ (s t : State) (r : List Byte) (rest : List (List Byte)), s.requests = r :: rest → step s = .next t →
    t.lastStatus ≠ 4 ∧ ∃ response, t.responses = s.responses ++ [response] ∧ response.head? ≠ some 4

/-- What a failure leaves (R184): both stores as they were, MBOX_STEP idle, every event issued before it kept, and a response
of status and cause alone, but for the step mask of LUT_UPLOAD. -/
def Obligations.FailureKeepsStores : Prop :=
  ∀ (i : Instr) (s t : State), exec i s = .next t → t.lastStatus ≠ 0 →
    StoresKept s t ∧ t.mboxStep = .idle ∧ (∃ events, t.trace = s.trace ++ events) ∧
      ∃ result, t.responses = s.responses ++ [t.lastStatus :: t.lastCause :: result] ∧
        (i ≠ .lutUpload → result = []) ∧ result.length ≤ 1

/-- The operations on the stores and the packer need no adapter: they cause no transport event. The operations that issue
transport events write neither store (R204, R23, R26). -/
def Obligations.StoresAndTransportApart : Prop :=
  ∀ (i : Instr) (s t : State), exec i s = .next t →
    (transportOp i = false → NoTraffic s t) ∧ (transportOp i = true → StoresKept s t)

/-- The machine right after reset (R36, R202): status OK, both stores empty with timing (0, 0), MBOX_STEP idle, no transport
event. -/
def Obligations.ResetValues : Prop :=
  State.reset.lastStatus = 0 ∧ State.reset.lastCause = 0 ∧ State.reset.seqCount = 0 ∧ State.reset.vxCount = 0 ∧
    (∀ i, Memory.read State.reset.seqEntry i = none) ∧ (∀ i, Memory.read State.reset.vxEntry i = none) ∧
    State.reset.seqExposure = 0 ∧ State.reset.seqPeriod = 0 ∧ State.reset.mboxStep = .idle ∧ State.reset.trace = []

/-- The numeric codes of every cause, with the status it refines (R181, R182). -/
def Obligations.CauseCodes : Prop :=
  (∀ c : Cause, Status.code (Cause.status c) ≠ 0 ∧ Cause.code c ≠ 0) ∧
    [Cause.teWrite, .teRead, .peNack, .peEmpty, .peLength, .peShort, .toRead, .pvPayloadLen, .pvNoReply, .pvPeriod,
      .pvPatternIndex, .pvBitDepth, .pvLedSelect, .pvFieldRange, .pvCapacity, .pvIndex, .pvEmptyLut, .irOpcode,
      .irLength].map (fun c => (Status.code (Cause.status c), Cause.code c)) =
    [(1, 1), (1, 2), (2, 1), (2, 2), (2, 3), (2, 4), (3, 1), (5, 1), (5, 2), (5, 3), (5, 4), (5, 5), (5, 6), (5, 7),
      (5, 8), (5, 9), (5, 10), (6, 1), (6, 2)]

/-! ### The message framer -/

/-- The places of the flag byte's fields under both layouts, the reserved bits 0 in what is sent and ignored in what is
received (R53). -/
def Obligations.FlagBytePlaces : Prop :=
  (∀ f : FlagFields,
    (encodeFlags .literal f).getLsbD 0 = f.rw.bit ∧ (encodeFlags .literal f).getLsbD 1 = f.reply ∧
    (encodeFlags .literal f).getLsbD 2 = f.error ∧ (encodeFlags .literal f).extractLsb' 3 2 = 0#2 ∧
    (encodeFlags .literal f).extractLsb' 5 3 = f.dest ∧
    (encodeFlags .msb0 f).getLsbD 7 = f.rw.bit ∧ (encodeFlags .msb0 f).getLsbD 6 = f.reply ∧
    (encodeFlags .msb0 f).getLsbD 5 = f.error ∧ (encodeFlags .msb0 f).extractLsb' 3 2 = 0#2 ∧
    (encodeFlags .msb0 f).extractLsb' 0 3 = f.dest) ∧
  (∀ b : Byte,
    (decodeFlags .literal b).rw.bit = b.getLsbD 0 ∧ (decodeFlags .literal b).reply = b.getLsbD 1 ∧
    (decodeFlags .literal b).error = b.getLsbD 2 ∧ (decodeFlags .literal b).dest = b.extractLsb' 5 3 ∧
    (decodeFlags .msb0 b).rw.bit = b.getLsbD 7 ∧ (decodeFlags .msb0 b).reply = b.getLsbD 6 ∧
    (decodeFlags .msb0 b).error = b.getLsbD 5 ∧ (decodeFlags .msb0 b).dest = b.extractLsb' 0 3)

/-- The flag round trip under either layout (R90, which the spec derives from R53). -/
def Obligations.FlagRoundTrip : Prop :=
  ∀ layout : FlagLayout,
    (∀ f : FlagFields, decodeFlags layout (encodeFlags layout f) = f) ∧
    ∀ b : Byte, encodeFlags layout (decodeFlags layout b) = b ↔ b.extractLsb' 3 2 = 0#2

/-- The outbound packets of a stream (R56): as many as hold it, each of `LEAD_OUT + P` bytes, the leading byte first, then the
next `P` stream bytes, the last packet filled with PAD_BYTE. -/
def Obligations.OutboundPacketShape : Prop :=
  ∀ (cfg : Params) (stream : List Byte), 4 ≤ cfg.p →
    (stream.length ≤ (packets cfg stream).length * cfg.p ∧
      (packets cfg stream).length * cfg.p < stream.length + cfg.p) ∧
    ∀ k < (packets cfg stream).length, ∃ pkt, (packets cfg stream)[k]? = some pkt ∧ pkt.length = 1 + cfg.p ∧
      pkt[0]? = some cfg.leadByte ∧
      ∀ j < cfg.p, pkt[1 + j]? = some (if k * cfg.p + j < stream.length then stream.getD (k * cfg.p + j) 0 else cfg.padByte)

/-- MSG_WRITE completes (R83): when the adapter accepts every packet of a message of at most 512 payload bytes, the response
is OK with the sum of the adapter's counts (its low 32 bits, notes/assumptions/13.md), exactly those packets were sent, and
nothing was read. -/
def Obligations.MsgWriteCompletes : Prop :=
  ∀ (s : State) (m : Envelope) (counts : List Nat) (txRest : List TxAnswer),
    m.payload.length ≤ 512 → Accepts s.cfg (messageStream s.cfg m) counts →
    s.txAnswers = counts.map TxAnswer.wrote ++ txRest →
    ∃ t, exec (.msgWrite m) s = .next t ∧ Answered s t (0 :: 0 :: le32 counts.sum) ∧ StoresKept s t ∧
      t.mboxStep = s.mboxStep ∧ t.trace = s.trace ++ sentEvents s.cfg (messageStream s.cfg m) counts ∧
      t.txAnswers = txRest ∧ t.rxAnswers = s.rxAnswers

/-- MSG_WRITE at the first adapter failure (R83): the packets before it stay sent, the later ones are not sent, the adapter is
not closed, and the response is TRANSPORT_ERROR(TE_WRITE). -/
def Obligations.MsgWriteFirstFailureStops : Prop :=
  ∀ (s : State) (m : Envelope) (counts : List Nat) (txRest : List TxAnswer),
    m.payload.length ≤ 512 → counts.length < packetCount s.cfg (4 + m.payload.length) →
    (∀ n ∈ counts, n ≤ 1 + s.cfg.p) → s.txAnswers = counts.map TxAnswer.wrote ++ .failed :: txRest →
    ∃ t, exec (.msgWrite m) s = .next t ∧ Answered s t [1, 1] ∧ StoresKept s t ∧ t.mboxStep = .idle ∧
      t.trace = s.trace ++ sentEvents s.cfg (messageStream s.cfg m) counts
        ++ [.tx (packet s.cfg (messageStream s.cfg m) counts.length) .failed] ∧
      t.txAnswers = txRest ∧ t.rxAnswers = s.rxAnswers

/-- A message whose payload is longer than 512 bytes is refused before any transport event (R83, R85). -/
def Obligations.LongPayloadRefused : Prop :=
  ∀ (s : State) (m : Envelope), 512 < m.payload.length →
    RefusedWith (.msgWrite m) s 1 ∧
      ((decodeFlags s.cfg.flagLayout m.flags).reply = true → RefusedWith (.msgTransact m) s 1)

/-- MSG_READ completes (R84): when the adapter's buffers carry a reply, the response is OK with the raw flag byte, the sequence
number, the length and the payload, exactly those buffers were read, and nothing was sent. -/
def Obligations.MsgReadCompletes : Prop :=
  ∀ (s : State) (bufs : List (List Byte)) (flags seq : Byte) (payload : List Byte) (rxRest : List RxAnswer),
    4 ≤ s.cfg.p → Carries s.cfg bufs flags seq payload → s.rxAnswers = bufs.map RxAnswer.data ++ rxRest →
    ∃ t, exec .msgRead s = .next t ∧ Answered s t (0 :: 0 :: flags :: seq :: (le16 payload.length ++ payload)) ∧
      StoresKept s t ∧ t.mboxStep = s.mboxStep ∧ t.trace = s.trace ++ receivedEvents bufs ∧
      t.txAnswers = s.txAnswers ∧ t.rxAnswers = rxRest

/-- A receive that fails, at the first packet of a reply or at a continuation packet, closes the adapter and ends MSG_READ:
TIMEOUT_ERROR(TO_READ) for a timeout, TRANSPORT_ERROR(TE_READ) for any other failure (R84, R86). -/
def Obligations.ReceiveFailureCloses : Prop :=
  ∀ (s : State) (bufs : List (List Byte)) (rxRest : List RxAnswer), 4 ≤ s.cfg.p →
    (∀ b ∈ bufs, b.length = s.cfg.inLead.val + s.cfg.p) →
    (bufs = [] ∨ (u16 (bufs.flatMap (streamBytes s.cfg)) 2 ≤ 512 ∧
      bufs.length < packetCount s.cfg (4 + u16 (bufs.flatMap (streamBytes s.cfg)) 2))) →
    (s.rxAnswers = bufs.map RxAnswer.data ++ .timeout :: rxRest →
      ∃ t, exec .msgRead s = .next t ∧ Answered s t [3, 1] ∧ StoresKept s t ∧ t.mboxStep = .idle ∧
        t.trace = s.trace ++ receivedEvents bufs ++ [.rx .timeout, .close] ∧ t.rxAnswers = rxRest ∧
        t.txAnswers = s.txAnswers) ∧
    (s.rxAnswers = bufs.map RxAnswer.data ++ .error :: rxRest →
      ∃ t, exec .msgRead s = .next t ∧ Answered s t [1, 2] ∧ StoresKept s t ∧ t.mboxStep = .idle ∧
        t.trace = s.trace ++ receivedEvents bufs ++ [.rx .error, .close] ∧ t.rxAnswers = rxRest ∧
        t.txAnswers = s.txAnswers)

/-- A reply whose length field is above 512 ends MSG_READ with PROTOCOL_ERROR(PE_LENGTH) after its first packet: no further
packet is read and the adapter is not closed (R84). -/
def Obligations.ReplyLengthRefused : Prop :=
  ∀ (s : State) (buf : List Byte) (rxRest : List RxAnswer), 4 ≤ s.cfg.p →
    buf.length = s.cfg.inLead.val + s.cfg.p → 512 < u16 (streamBytes s.cfg buf) 2 →
    s.rxAnswers = .data buf :: rxRest →
    ∃ t, exec .msgRead s = .next t ∧ Answered s t [2, 3] ∧ StoresKept s t ∧ t.mboxStep = .idle ∧
      t.trace = s.trace ++ [.rx (.data buf)] ∧ t.rxAnswers = rxRest ∧ t.txAnswers = s.txAnswers

/-- Loopback reassembly (R89, which the spec derives from R81 to R84): read back, with the leading byte removed when IN_LEAD is 0, the packets a `Write` sent give the
message written. -/
def Obligations.LoopbackReassembly : Prop :=
  ∀ (m : Message) (s t u : State) (total : Nat) (sent : List Event) (rest : List RxAnswer),
    4 ≤ s.cfg.p → m.payload.length ≤ 512 → writeMessage m s = (.ok total, t) → t.trace = s.trace ++ sent →
    u.cfg = s.cfg →
    u.rxAnswers = (txBuffers sent).map (fun pkt => RxAnswer.data (pkt.drop (1 - s.cfg.inLead.val))) ++ rest →
    (readMessage u).1
      = .ok ⟨encodeFlags s.cfg.flagLayout m.flags, m.flags, m.seq, m.payload.length, m.payload⟩

/-- Packet and byte counts (R91, which the spec derives from R82 to R84). The counts under the default packet size rest on
notes/assumptions/4.md. -/
def Obligations.PacketCounts : Prop :=
  (∀ (m : Message) (s t : State) (total : Nat), 4 ≤ s.cfg.p → writeMessage m s = (.ok total, t) →
    ∃ events, t.trace = s.trace ++ events ∧ events.length = packetCount s.cfg (4 + m.payload.length) ∧
      (txBuffers events).length = packetCount s.cfg (4 + m.payload.length) ∧
      ((∀ buf a, Event.tx buf a ∈ events → a = .wrote (1 + s.cfg.p)) →
        total = packetCount s.cfg (4 + m.payload.length) * (s.cfg.p + 1))) ∧
  (∀ (s t : State) (reply : Reply), 4 ≤ s.cfg.p → readMessage s = (.ok reply, t) →
    ∃ events, t.trace = s.trace ++ events ∧ events.length = packetCount s.cfg (4 + reply.len) ∧
      rxCount events = packetCount s.cfg (4 + reply.len)) ∧
  (∀ (cfg : Params) (n : Nat), 4 ≤ cfg.p → (packetCount cfg (4 + n) = 1 ↔ n ≤ cfg.p - 4)) ∧
  (∀ n ≤ 60, packetCount defaultParams (4 + n) * (defaultParams.p + 1) = 65) ∧
  packetCount defaultParams (4 + 512) * (defaultParams.p + 1) = 585

/-- MSG_TRANSACT completes (R85): when the message requests a reply, the adapter accepts it and carries an acceptable reply, the
response is OK with the reply's length and payload. -/
def Obligations.MsgTransactCompletes : Prop :=
  ∀ (s : State) (m : Envelope) (x : Exchange) (txRest : List TxAnswer) (rxRest : List RxAnswer),
    4 ≤ s.cfg.p → (decodeFlags s.cfg.flagLayout m.flags).reply = true → m.payload.length ≤ 512 →
    Exchange.goesThrough s.cfg (messageStream s.cfg m) x →
    s.txAnswers = x.counts.map TxAnswer.wrote ++ txRest → s.rxAnswers = x.bufs.map RxAnswer.data ++ rxRest →
    ∃ t, exec (.msgTransact m) s = .next t ∧
      Transacted s t (messageStream s.cfg m) x (0 :: 0 :: (le16 x.payload.length ++ x.payload)) ∧
      t.txAnswers = txRest ∧ t.rxAnswers = rxRest

/-- MSG_TRANSACT of a message that requests no reply is refused with PV_NO_REPLY before any transport event, whatever its
payload (R85). -/
def Obligations.TransactNeedsReply : Prop :=
  ∀ (s : State) (m : Envelope), (decodeFlags s.cfg.flagLayout m.flags).reply = false →
    RefusedWith (.msgTransact m) s 2

/-- MSG_TRANSACT's failures (R85, R86). The checks of a complete reply: the error flag gives PROTOCOL_ERROR(PE_NACK), also for a
read-type reply of length 0; a read-type reply of length 0 without it gives PE_EMPTY. And every way the transaction fails: a
write failure (nothing is read and the adapter is not closed), a failed receive (the adapter is closed), a length above 512, and
these two checks, each with its response, its events, and no further answer taken. -/
def Obligations.ReplyChecks : Prop :=
  ∀ (s : State) (m : Envelope) (x : Exchange) (txRest : List TxAnswer) (rxRest : List RxAnswer),
    4 ≤ s.cfg.p → (decodeFlags s.cfg.flagLayout m.flags).reply = true → m.payload.length ≤ 512 →
    (Accepts s.cfg (messageStream s.cfg m) x.counts → Carries s.cfg x.bufs x.flags x.seq x.payload →
      s.txAnswers = x.counts.map TxAnswer.wrote ++ txRest → s.rxAnswers = x.bufs.map RxAnswer.data ++ rxRest →
      ((decodeFlags s.cfg.flagLayout x.flags).error = true →
        ∃ t, exec (.msgTransact m) s = .next t ∧ Answered s t [2, 1] ∧ StoresKept s t ∧ t.mboxStep = .idle ∧
          t.trace = s.trace ++ x.events s.cfg (messageStream s.cfg m)) ∧
      ((decodeFlags s.cfg.flagLayout x.flags).error = false → (decodeFlags s.cfg.flagLayout x.flags).rw = .read →
        x.payload = [] →
        ∃ t, exec (.msgTransact m) s = .next t ∧ Answered s t [2, 2] ∧ StoresKept s t ∧ t.mboxStep = .idle ∧
          t.trace = s.trace ++ x.events s.cfg (messageStream s.cfg m))) ∧
    ∀ (c : Cause) (tx : List TxAnswer) (rx : List RxAnswer) (events : List Event),
      Attempt s.cfg (messageStream s.cfg m) (.error c) tx rx events →
      s.txAnswers = tx ++ txRest → s.rxAnswers = rx ++ rxRest →
      (c, failureCodes c) ∈ [(Cause.teWrite, [1, 1]), (.teRead, [1, 2]), (.peNack, [2, 1]), (.peEmpty, [2, 2]),
        (.peLength, [2, 3]), (.toRead, [3, 1])] ∧
      ∃ t, exec (.msgTransact m) s = .next t ∧ EndedIdle s t (failureCodes c) events txRest rxRest

/-! ### The pattern packer and the stores -/

/-- The packed word and its fields, by number (R95, R96). -/
def Obligations.PackedFieldPlaces : Prop :=
  (∀ p : Pattern, fitsWidth p = true →
    (packPattern p).toNat = p.triggerType.toNat + p.patternIndex.toNat * 2 ^ 2 + p.bitDepth.toNat * 2 ^ 8
      + p.ledSelect.toNat * 2 ^ 12 + p.invertPattern.toNat * 2 ^ 16 + p.insertBlack.toNat * 2 ^ 17
      + p.bufferSwap.toNat * 2 ^ 18 + p.triggerOutPrevious.toNat * 2 ^ 19) ∧
  ∀ w : Word24,
    (unpackPattern w).triggerType.toNat = w.toNat % 2 ^ 2 ∧
    (unpackPattern w).patternIndex.toNat = w.toNat / 2 ^ 2 % 2 ^ 6 ∧
    (unpackPattern w).bitDepth.toNat = w.toNat / 2 ^ 8 % 2 ^ 4 ∧
    (unpackPattern w).ledSelect.toNat = w.toNat / 2 ^ 12 % 2 ^ 4 ∧
    (unpackPattern w).invertPattern.toNat = w.toNat / 2 ^ 16 % 2 ∧
    (unpackPattern w).insertBlack.toNat = w.toNat / 2 ^ 17 % 2 ∧
    (unpackPattern w).bufferSwap.toNat = w.toNat / 2 ^ 18 % 2 ∧
    (unpackPattern w).triggerOutPrevious.toNat = w.toNat / 2 ^ 19 % 2

/-- The packer's round trips (R112, which the spec derives from R95 and R96): unpacking a packed descriptor gives it back, and packing an unpacked word gives the word
back exactly when its bits 23:20 are 0. -/
def Obligations.PackerRoundTrip : Prop :=
  (∀ p : Pattern, fitsWidth p = true → unpackPattern (packPattern p) = p) ∧
    ∀ w : Word24, packPattern (unpackPattern w) = w ↔ w.extractLsb' 20 4 = 0#4

/-- PAT_PACK (R94, R110): when every field fits its width, OK with the packed word in three bytes; otherwise PV_FIELD_RANGE. -/
def Obligations.PatPackCompletes : Prop :=
  (∀ p : Pattern, encode (.patPack p) = [0xD0, p.triggerType, p.patternIndex, p.bitDepth, p.ledSelect, p.invertPattern,
    p.insertBlack, p.bufferSwap, p.triggerOutPrevious]) ∧
  ∀ (s : State) (p : Pattern),
    ((p.triggerType.toNat ≤ 3 ∧ p.patternIndex.toNat ≤ 63 ∧ p.bitDepth.toNat ≤ 15 ∧ p.ledSelect.toNat ≤ 15 ∧
        p.invertPattern.toNat ≤ 1 ∧ p.insertBlack.toNat ≤ 1 ∧ p.bufferSwap.toNat ≤ 1 ∧ p.triggerOutPrevious.toNat ≤ 1) →
      ∃ t, exec (.patPack p) s = .next t ∧ AnsweredQuietly s t (0 :: 0 :: le24 (packPattern p).toNat) ∧
        t.mboxStep = s.mboxStep) ∧
    (¬ (p.triggerType.toNat ≤ 3 ∧ p.patternIndex.toNat ≤ 63 ∧ p.bitDepth.toNat ≤ 15 ∧ p.ledSelect.toNat ≤ 15 ∧
        p.invertPattern.toNat ≤ 1 ∧ p.insertBlack.toNat ≤ 1 ∧ p.bufferSwap.toNat ≤ 1 ∧ p.triggerOutPrevious.toNat ≤ 1) →
      RefusedWith (.patPack p) s 7)

/-- PAT_UNPACK (R111): OK with the eight fields of the word, one byte each, in declaration order. -/
def Obligations.PatUnpackCompletes : Prop :=
  ∀ (s : State) (w : Word24),
    encode (.patUnpack w) = 0xD1 :: le24 w.toNat ∧
    ∃ t, exec (.patUnpack w) s = .next t ∧ t.mboxStep = s.mboxStep ∧
      AnsweredQuietly s t
        [0, 0, BitVec.ofNat 8 (w.toNat % 4), BitVec.ofNat 8 (w.toNat / 4 % 64), BitVec.ofNat 8 (w.toNat / 256 % 16),
          BitVec.ofNat 8 (w.toNat / 4096 % 16), BitVec.ofNat 8 (w.toNat / 65536 % 2),
          BitVec.ofNat 8 (w.toNat / 131072 % 2), BitVec.ofNat 8 (w.toNat / 262144 % 2),
          BitVec.ofNat 8 (w.toNat / 524288 % 2)]

/-- SEQ_ADD completes (R99, R102): a descriptor within the ranges, added to a store that is not full, is stored at the count as
its packed word, with the buffer swap set when the store was empty; the count goes up by 1, every other entry, the timing and
the VX store are as they were, and the response is OK with the entry's index. -/
def Obligations.SeqAddCompletes : Prop :=
  ∀ (s : State) (p : Pattern),
    p.triggerType.toNat ≤ 3 → p.patternIndex.toNat ≤ 24 → 1 ≤ p.bitDepth.toNat → p.bitDepth.toNat ≤ 8 →
    p.ledSelect.toNat ≤ 7 → p.invertPattern.toNat ≤ 1 → p.insertBlack.toNat ≤ 1 → p.bufferSwap.toNat ≤ 1 →
    p.triggerOutPrevious.toNat ≤ 1 → s.seqCount.toNat < 128 →
    ∃ t w, exec (.seqAdd p) s = .next t ∧ Answered s t [0, 0, s.seqCount] ∧
      Memory.read t.seqEntry s.seqCount.toNat = some w ∧
      w.toNat = p.triggerType.toNat + p.patternIndex.toNat * 2 ^ 2 + p.bitDepth.toNat * 2 ^ 8
        + p.ledSelect.toNat * 2 ^ 12 + p.invertPattern.toNat * 2 ^ 16 + p.insertBlack.toNat * 2 ^ 17
        + (if s.seqCount.toNat = 0 then 1 else p.bufferSwap.toNat) * 2 ^ 18 + p.triggerOutPrevious.toNat * 2 ^ 19 ∧
      (∀ i, i ≠ s.seqCount.toNat → Memory.read t.seqEntry i = Memory.read s.seqEntry i) ∧
      t.seqCount.toNat = s.seqCount.toNat + 1 ∧ t.seqExposure = s.seqExposure ∧ t.seqPeriod = s.seqPeriod ∧
      VxKept s t ∧ NoTraffic s t ∧ t.mboxStep = s.mboxStep

/-- SEQ_ADD's refusals in the order of R97, the capacity check last (R102, R186). -/
def Obligations.SeqAddRefusals : Prop :=
  ∀ (s : State) (p : Pattern),
    (3 < p.triggerType.toNat → RefusedWith (.seqAdd p) s 7) ∧
    (p.triggerType.toNat ≤ 3 → 24 < p.patternIndex.toNat → RefusedWith (.seqAdd p) s 4) ∧
    (p.triggerType.toNat ≤ 3 → p.patternIndex.toNat ≤ 24 → (p.bitDepth.toNat = 0 ∨ 8 < p.bitDepth.toNat) →
      RefusedWith (.seqAdd p) s 5) ∧
    (p.triggerType.toNat ≤ 3 → p.patternIndex.toNat ≤ 24 → 1 ≤ p.bitDepth.toNat → p.bitDepth.toNat ≤ 8 →
      7 < p.ledSelect.toNat → RefusedWith (.seqAdd p) s 6) ∧
    (p.triggerType.toNat ≤ 3 → p.patternIndex.toNat ≤ 24 → 1 ≤ p.bitDepth.toNat → p.bitDepth.toNat ≤ 8 →
      p.ledSelect.toNat ≤ 7 →
      (1 < p.invertPattern.toNat ∨ 1 < p.insertBlack.toNat ∨ 1 < p.bufferSwap.toNat ∨ 1 < p.triggerOutPrevious.toNat) →
      RefusedWith (.seqAdd p) s 7) ∧
    (p.triggerType.toNat ≤ 3 → p.patternIndex.toNat ≤ 24 → 1 ≤ p.bitDepth.toNat → p.bitDepth.toNat ≤ 8 →
      p.ledSelect.toNat ≤ 7 → p.invertPattern.toNat ≤ 1 → p.insertBlack.toNat ≤ 1 → p.bufferSwap.toNat ≤ 1 →
      p.triggerOutPrevious.toNat ≤ 1 → s.seqCount.toNat = 128 → RefusedWith (.seqAdd p) s 8)

/-- SEQ_READ (R104): an index below the count gives OK with the entry's word in three bytes, an index at or above it PV_INDEX.
An entry nothing has written, which no run reaches below the count, gives a free word: the model's choice
(notes/assumptions/10.md). -/
def Obligations.SeqReadCompletes : Prop :=
  ∀ (s : State) (index : Half),
    encode (.seqRead index) = 0xC3 :: le16 index.toNat ∧
    (index.toNat < s.seqCount.toNat →
      ∃ t w, exec (.seqRead index) s = .next t ∧ AnsweredQuietly s t (0 :: 0 :: le24 w) ∧ t.mboxStep = s.mboxStep ∧
        ∀ v, Memory.read s.seqEntry index.toNat = some v → w = v.toNat) ∧
    (s.seqCount.toNat ≤ index.toNat → RefusedWith (.seqRead index) s 9)

/-- An entry SEQ_ADD stored is what SEQ_READ of the index it answered gives: a store write is seen by the next request (R46). -/
def Obligations.SeqReadAfterAdd : Prop :=
  ∀ (s t : State) (p : Pattern), s.seqCount.toNat < 128 → exec (.seqAdd p) s = .next t → t.lastStatus = 0 →
    ∃ u, exec (.seqRead (s.seqCount.setWidth 16)) t = .next u ∧
      AnsweredQuietly t u (0 :: 0 :: le24 (packPattern (if s.seqCount.toNat = 0 then { p with bufferSwap := 1 } else p)).toNat)

/-- SEQ_CLEAR and VX_CLEAR (R101, R106): the store's count becomes 0, the timing and the other store are kept, and the response
is OK. That no entry is written is the model's reading (DEDUCED, notes/assumptions/12.md): the spec leaves the entries above the
count any value (I24). -/
def Obligations.ClearsComplete : Prop :=
  encode .seqClear = [0xC0] ∧ encode .vxClear = [0xC8] ∧
  ∀ s : State,
    (∃ t, exec .seqClear s = .next t ∧ Answered s t [0, 0] ∧ t.seqCount = 0 ∧ t.seqEntry = s.seqEntry ∧
      t.seqExposure = s.seqExposure ∧ t.seqPeriod = s.seqPeriod ∧ VxKept s t ∧ NoTraffic s t ∧ t.mboxStep = s.mboxStep) ∧
    ∃ t, exec .vxClear s = .next t ∧ Answered s t [0, 0] ∧ t.vxCount = 0 ∧ t.vxEntry = s.vxEntry ∧ SeqKept s t ∧ NoTraffic s t ∧
      t.mboxStep = s.mboxStep

/-- SEQ_SET_TIMING (R103): any pair is stored, the entries and the VX store are kept, and the response is OK. -/
def Obligations.SeqSetTimingCompletes : Prop :=
  ∀ (s : State) (exposure period : Word32),
    encode (.seqSetTiming exposure period) = 0xC2 :: (le32 exposure.toNat ++ le32 period.toNat) ∧
    ∃ t, exec (.seqSetTiming exposure period) s = .next t ∧
    Answered s t [0, 0] ∧ t.seqExposure = exposure ∧ t.seqPeriod = period ∧ t.seqEntry = s.seqEntry ∧
    t.seqCount = s.seqCount ∧ VxKept s t ∧ NoTraffic s t ∧ t.mboxStep = s.mboxStep

/-- SEQ_STATUS and VX_STATUS (R105, R109): the counts and the timing, nothing changed. -/
def Obligations.StoreStatusCompletes : Prop :=
  encode .seqStatus = [0xC4] ∧ encode .vxStatus = [0xCB] ∧
  ∀ s : State,
    (∃ t, exec .seqStatus s = .next t ∧ t.mboxStep = s.mboxStep ∧
      AnsweredQuietly s t (0 :: 0 :: s.seqCount :: (le32 s.seqExposure.toNat ++ le32 s.seqPeriod.toNat))) ∧
    ∃ t, exec .vxStatus s = .next t ∧ t.mboxStep = s.mboxStep ∧ AnsweredQuietly s t (0 :: 0 :: le16 s.vxCount.toNat)

/-- VX_ADD completes (R98, R99, R107): as SEQ_ADD, with pattern index 25 admitted and the timing stored unchecked. -/
def Obligations.VxAddCompletes : Prop :=
  ∀ (s : State) (p : Pattern) (exposure period : Word32),
    p.triggerType.toNat ≤ 3 → p.patternIndex.toNat ≤ 25 → 1 ≤ p.bitDepth.toNat → p.bitDepth.toNat ≤ 8 →
    p.ledSelect.toNat ≤ 7 → p.invertPattern.toNat ≤ 1 → p.insertBlack.toNat ≤ 1 → p.bufferSwap.toNat ≤ 1 →
    p.triggerOutPrevious.toNat ≤ 1 → s.vxCount.toNat < 1824 →
    ∃ t e, exec (.vxAdd p exposure period) s = .next t ∧ Answered s t (0 :: 0 :: le16 s.vxCount.toNat) ∧
      Memory.read t.vxEntry s.vxCount.toNat = some e ∧ e.exposure = exposure ∧ e.period = period ∧
      e.word.toNat = p.triggerType.toNat + p.patternIndex.toNat * 2 ^ 2 + p.bitDepth.toNat * 2 ^ 8
        + p.ledSelect.toNat * 2 ^ 12 + p.invertPattern.toNat * 2 ^ 16 + p.insertBlack.toNat * 2 ^ 17
        + (if s.vxCount.toNat = 0 then 1 else p.bufferSwap.toNat) * 2 ^ 18 + p.triggerOutPrevious.toNat * 2 ^ 19 ∧
      (∀ i, i ≠ s.vxCount.toNat → Memory.read t.vxEntry i = Memory.read s.vxEntry i) ∧
      t.vxCount.toNat = s.vxCount.toNat + 1 ∧ SeqKept s t ∧ NoTraffic s t ∧ t.mboxStep = s.mboxStep

/-- VX_ADD's refusals in the order of R98, the capacity check last (R107, R186). -/
def Obligations.VxAddRefusals : Prop :=
  ∀ (s : State) (p : Pattern) (exposure period : Word32),
    (3 < p.triggerType.toNat → RefusedWith (.vxAdd p exposure period) s 7) ∧
    (p.triggerType.toNat ≤ 3 → 25 < p.patternIndex.toNat → RefusedWith (.vxAdd p exposure period) s 4) ∧
    (p.triggerType.toNat ≤ 3 → p.patternIndex.toNat ≤ 25 → (p.bitDepth.toNat = 0 ∨ 8 < p.bitDepth.toNat) →
      RefusedWith (.vxAdd p exposure period) s 5) ∧
    (p.triggerType.toNat ≤ 3 → p.patternIndex.toNat ≤ 25 → 1 ≤ p.bitDepth.toNat → p.bitDepth.toNat ≤ 8 →
      7 < p.ledSelect.toNat → RefusedWith (.vxAdd p exposure period) s 6) ∧
    (p.triggerType.toNat ≤ 3 → p.patternIndex.toNat ≤ 25 → 1 ≤ p.bitDepth.toNat → p.bitDepth.toNat ≤ 8 →
      p.ledSelect.toNat ≤ 7 →
      (1 < p.invertPattern.toNat ∨ 1 < p.insertBlack.toNat ∨ 1 < p.bufferSwap.toNat ∨ 1 < p.triggerOutPrevious.toNat) →
      RefusedWith (.vxAdd p exposure period) s 7) ∧
    (p.triggerType.toNat ≤ 3 → p.patternIndex.toNat ≤ 25 → 1 ≤ p.bitDepth.toNat → p.bitDepth.toNat ≤ 8 →
      p.ledSelect.toNat ≤ 7 → p.invertPattern.toNat ≤ 1 → p.insertBlack.toNat ≤ 1 → p.bufferSwap.toNat ≤ 1 →
      p.triggerOutPrevious.toNat ≤ 1 → s.vxCount.toNat = 1824 → RefusedWith (.vxAdd p exposure period) s 8)

/-- VX_READ (R108): an index below the count gives OK with the entry's word, exposure and period; an index at or above it
PV_INDEX. An entry nothing has written, which no run reaches below the count, is a free triple: the model's choice
(notes/assumptions/10.md). -/
def Obligations.VxReadCompletes : Prop :=
  ∀ (s : State) (index : Half),
    encode (.vxRead index) = 0xCA :: le16 index.toNat ∧
    (index.toNat < s.vxCount.toNat →
      ∃ t e, exec (.vxRead index) s = .next t ∧ t.mboxStep = s.mboxStep ∧
        AnsweredQuietly s t (0 :: 0 :: (le24 e.word.toNat ++ le32 e.exposure.toNat ++ le32 e.period.toNat)) ∧
        ∀ v, Memory.read s.vxEntry index.toNat = some v → e = v) ∧
    (s.vxCount.toNat ≤ index.toNat → RefusedWith (.vxRead index) s 9)

/-! ### The register codec -/

/-- The GETs that answer the fields of the register, one byte a field, and GET.PAT_PERIOD, four bytes a field (R114, R115), for
every value of the parameters. A field value above 255, or of 2^32 or more for PAT_PERIOD, which no default layout has here, gives
a free byte or word (notes/assumptions/21.md). That the mailbox offset and the period pair go through their layouts is DEDUCED
(notes/assumptions/6.md). -/
def Obligations.GetFieldsComplete : Prop :=
  (∀ n < 256, fieldByte n = BitVec.ofNat 8 n) ∧
  GetCompletes .getPowerMode .powerMode (fun cfg raw => (layoutUnpack (layoutOf cfg .powerMode) raw).map fieldByte) ∧
  GetCompletes .getLedEnable .ledEnable (fun cfg raw => (layoutUnpack (layoutOf cfg .ledEnable) raw).map fieldByte) ∧
  GetCompletes .getInputSource .inputSource
    (fun cfg raw => (layoutUnpack (layoutOf cfg .inputSource) raw).map fieldByte) ∧
  GetCompletes .getTestPattern .testPattern
    (fun cfg raw => (layoutUnpack (layoutOf cfg .testPattern) raw).map fieldByte) ∧
  GetCompletes .getDisplayMode .displayMode
    (fun cfg raw => (layoutUnpack (layoutOf cfg .displayMode) raw).map fieldByte) ∧
  GetCompletes .getGamma .gamma (fun cfg raw => (layoutUnpack (layoutOf cfg .gamma) raw).map fieldByte) ∧
  GetCompletes .getPatTriggerMode .patTriggerMode
    (fun cfg raw => (layoutUnpack (layoutOf cfg .patTriggerMode) raw).map fieldByte) ∧
  GetCompletes .getPatDataSource .patDataSource
    (fun cfg raw => (layoutUnpack (layoutOf cfg .patDataSource) raw).map fieldByte) ∧
  GetCompletes .getPatSeqStatus .patSeqStatus
    (fun cfg raw => (layoutUnpack (layoutOf cfg .patSeqStatus) raw).map fieldByte) ∧
  GetCompletes .getPatConfig .patConfig
    (fun cfg raw => (layoutUnpack (layoutOf cfg .patConfig) raw).map fieldByte) ∧
  GetCompletes .getMboxMode .mboxMode (fun cfg raw => (layoutUnpack (layoutOf cfg .mboxMode) raw).map fieldByte) ∧
  GetCompletes .getMboxOffset .mboxOffset (fun cfg raw => (layoutUnpack (layoutOf cfg .mboxOffset) raw).map fieldByte) ∧
  (∀ n < 2 ^ 32, fieldWord n = le32 n) ∧
  GetCompletes .getPatPeriod .patPeriod (fun cfg raw => (layoutUnpack (layoutOf cfg .patPeriod) raw).flatMap fieldWord)

/-- The GETs of the read-only registers: the version words, four bytes each, the status fields, one byte each, and the firmware
tag with its length (R162, R164, R166, R168, R170); under the default layouts (notes/assumptions/4.md) the version words are the
register's 16 bytes and the status is its byte. That VERSION and the statuses go through REGMAP's layouts is DEDUCED
(notes/assumptions/6.md); a field value wider than its result is free (notes/assumptions/21.md). -/
def Obligations.GetRawComplete : Prop :=
  (∀ n < 256, fieldByte n = BitVec.ofNat 8 n) ∧ (∀ n < 2 ^ 32, fieldWord n = le32 n) ∧
  (∀ raw : List Byte, raw.length = 16 → (layoutUnpack defaultLayout.version raw).flatMap fieldWord = raw) ∧
  (∀ b : Byte, (layoutUnpack defaultLayout.hwStatus [b]).map fieldByte = [b] ∧
    (layoutUnpack defaultLayout.sysStatus [b]).map fieldByte = [b] ∧
    (layoutUnpack defaultLayout.mainStatus [b]).map fieldByte = [b]) ∧
  GetCompletes .getVersion .version (fun cfg raw => (layoutUnpack (layoutOf cfg .version) raw).flatMap fieldWord) ∧
  GetCompletes .getFirmwareTag .firmwareTag (fun _ raw => le16 raw.length ++ raw) ∧
  GetCompletes .getHwStatus .hwStatus (fun cfg raw => (layoutUnpack (layoutOf cfg .hwStatus) raw).map fieldByte) ∧
  GetCompletes .getSysStatus .sysStatus (fun cfg raw => (layoutUnpack (layoutOf cfg .sysStatus) raw).map fieldByte) ∧
  GetCompletes .getMainStatus .mainStatus (fun cfg raw => (layoutUnpack (layoutOf cfg .mainStatus) raw).map fieldByte)

/-- GET.LED_CURRENT answers each channel inverted, 255 less the wire byte (R123). GET.VALIDATE answers its fields, then whether the
first five are all 0, then whether the sixth is 0 (R159). Under a REGMAP other than the default these rest on the model's
choices: a byte the register lacks, a field value above 255 and the order of the fields (notes/assumptions/21.md), and fields
beyond byte 0 of VALIDATE (notes/assumptions/23.md). -/
def Obligations.GetDerivedComplete : Prop :=
  (∀ (raw : List Byte) (i : Nat) (h : i < raw.length), rawByte raw i = raw[i]) ∧ (∀ n < 256, fieldByte n = BitVec.ofNat 8 n) ∧
  (GetCompletes .getLedCurrent .ledCurrent fun _ raw =>
    [255 - rawByte raw 0, 255 - rawByte raw 1, 255 - rawByte raw 2]) ∧
  GetCompletes .getValidate .validate fun cfg raw =>
    (layoutUnpack (layoutOf cfg .validate) raw).map fieldByte ++
      [if ∀ v ∈ (layoutUnpack (layoutOf cfg .validate) raw).take 5, v = 0 then 1 else 0,
       if (layoutUnpack (layoutOf cfg .validate) raw).getD 5 0 = 0 then 1 else 0]

/-- A GET whose reply payload is shorter than the register's width ends with PROTOCOL_ERROR(PE_SHORT), after the whole
transaction (R114). -/
def Obligations.ShortReplyRefused : Prop :=
  ∀ (r : Reg) (i : Instr), getOf r = some i →
    ∀ (s : State) (x : Exchange) (txRest : List TxAnswer) (rxRest : List RxAnswer) (w : Nat),
      4 ≤ s.cfg.p → Exchange.goesThrough s.cfg (getStream s.cfg r) x →
      s.txAnswers = x.counts.map TxAnswer.wrote ++ txRest → s.rxAnswers = x.bufs.map RxAnswer.data ++ rxRest →
      (layoutOf s.cfg r).width = some w → x.payload.length < w →
      ∃ t, exec i s = .next t ∧ Answered s t [2, 4] ∧ StoresKept s t ∧ t.mboxStep = .idle ∧
        t.trace = s.trace ++ x.events s.cfg (getStream s.cfg r) ∧ t.txAnswers = txRest ∧ t.rxAnswers = rxRest

/-- A GET or a SET whose transaction fails answers with the status and the cause of that failure (R114, R186). First, whatever the
adapter answers: as `Transact` of the same message fails, and with its events. Then the failures one by one (`Attempt`): a write
failure, a failed receive with its close, a length above 512, a NACK, and a read-type reply of length 0, for every GET and for
every SET whose operands pass its check. Two things the SETs send are the model's choices, both DEDUCED: that PAT_TRIGGER_MODE,
MBOX_OFFSET and PAT_PERIOD are packed by REGMAP's layouts (notes/assumptions/6.md), and which operands pass, by Fits of REGMAP's
layout or, for POWER_MODE, PAT_TRIGGER_MODE, MBOX_OFFSET and PAT_PERIOD, with no field check (notes/assumptions/15.md). -/
def Obligations.GetFailsAsTransact : Prop :=
  (∀ (r : Reg) (i : Instr), getOf r = some i → ∀ (s u : State) (c : Cause),
    transact (getMsg s.cfg r) s = (.error c, u) →
    ∃ t, exec i s = .next t ∧ Answered s t (failureCodes c) ∧ StoresKept s t ∧
      t.mboxStep = .idle ∧ t.trace = u.trace ∧ t.txAnswers = u.txAnswers ∧ t.rxAnswers = u.rxAnswers) ∧
  (∀ (i : Instr) (f : SetForm), setForm i = some f → ∀ (s u : State) (c : Cause),
    f.ok s.cfg = true → transact (setMsg s.cfg f.reg (f.raw s.cfg)) s = (.error c, u) →
    ∃ t, exec i s = .next t ∧ Answered s t (failureCodes c) ∧ StoresKept s t ∧
      t.mboxStep = .idle ∧ t.trace = u.trace ∧ t.txAnswers = u.txAnswers ∧ t.rxAnswers = u.rxAnswers) ∧
  (∀ (r : Reg) (i : Instr), getOf r = some i →
    ∀ (s : State) (c : Cause) (tx txRest : List TxAnswer) (rx rxRest : List RxAnswer) (events : List Event),
      4 ≤ s.cfg.p → Attempt s.cfg (getStream s.cfg r) (.error c) tx rx events →
      s.txAnswers = tx ++ txRest → s.rxAnswers = rx ++ rxRest →
      ∃ t, exec i s = .next t ∧ EndedIdle s t (failureCodes c) events txRest rxRest) ∧
  ∀ (i : Instr) (f : SetForm), setForm i = some f →
    ∀ (s : State) (c : Cause) (tx txRest : List TxAnswer) (rx rxRest : List RxAnswer) (events : List Event),
      4 ≤ s.cfg.p → f.ok s.cfg = true → 2 + (f.raw s.cfg).length ≤ 512 →
      Attempt s.cfg (setStream s.cfg f.reg (f.raw s.cfg)) (.error c) tx rx events →
      s.txAnswers = tx ++ txRest → s.rxAnswers = rx ++ rxRest →
      ∃ t, exec i s = .next t ∧ EndedIdle s t (failureCodes c) events txRest rxRest

/-- The SETs that check their fields complete (R115): whatever the layouts, when each operand fits its field, the packed
register is sent. That the fields of REGMAP decide, also where a SET's own rule writes a number, is DEDUCED
(notes/assumptions/15.md). -/
def Obligations.SetCheckedComplete : Prop :=
  (∀ r g b q : Byte, SetCompletes (.setLedEnable r g b q) .ledEnable
    (fun cfg => layoutPack (layoutOf cfg .ledEnable) [r.toNat, g.toNat, b.toNat, q.toNat])
    (fun cfg => layoutFits (layoutOf cfg .ledEnable) [r.toNat, g.toNat, b.toNat, q.toNat] = true)) ∧
  (∀ a w : Byte, SetCompletes (.setInputSource a w) .inputSource
    (fun cfg => layoutPack (layoutOf cfg .inputSource) [a.toNat, w.toNat])
    (fun cfg => layoutFits (layoutOf cfg .inputSource) [a.toNat, w.toNat] = true)) ∧
  (∀ v : Byte, SetCompletes (.setTestPattern v) .testPattern
    (fun cfg => layoutPack (layoutOf cfg .testPattern) [v.toNat])
    (fun cfg => layoutFits (layoutOf cfg .testPattern) [v.toNat] = true)) ∧
  (∀ v : Byte, SetCompletes (.setDisplayMode v) .displayMode
    (fun cfg => layoutPack (layoutOf cfg .displayMode) [v.toNat])
    (fun cfg => layoutFits (layoutOf cfg .displayMode) [v.toNat] = true)) ∧
  (∀ a e : Byte, SetCompletes (.setGamma a e) .gamma
    (fun cfg => layoutPack (layoutOf cfg .gamma) [a.toNat, e.toNat])
    (fun cfg => layoutFits (layoutOf cfg .gamma) [a.toNat, e.toNat] = true)) ∧
  (∀ v : Byte, SetCompletes (.setPatDataSource v) .patDataSource
    (fun cfg => layoutPack (layoutOf cfg .patDataSource) [v.toNat])
    (fun cfg => layoutFits (layoutOf cfg .patDataSource) [v.toNat] = true)) ∧
  (∀ v : Byte, SetCompletes (.setPatSeqStatus v) .patSeqStatus
    (fun cfg => layoutPack (layoutOf cfg .patSeqStatus) [v.toNat])
    (fun cfg => layoutFits (layoutOf cfg .patSeqStatus) [v.toNat] = true)) ∧
  (∀ n r k m : Byte, SetCompletes (.setPatConfig n r k m) .patConfig
    (fun cfg => layoutPack (layoutOf cfg .patConfig) [n.toNat, r.toNat, k.toNat, m.toNat])
    (fun cfg => layoutFits (layoutOf cfg .patConfig) [n.toNat, r.toNat, k.toNat, m.toNat] = true)) ∧
  (∀ v : Byte, SetCompletes (.setMboxMode v) .mboxMode
    (fun cfg => layoutPack (layoutOf cfg .mboxMode) [v.toNat])
    (fun cfg => layoutFits (layoutOf cfg .mboxMode) [v.toNat] = true))

/-- The SETs with no field check complete (R118, R124, R139, R157, R160): the mode and offset bytes packed, the currents inverted,
the validation trigger with the parameter bytes REGMAP gives it, none by default. That POWER_MODE, PAT_TRIGGER_MODE and
MBOX_OFFSET are sent unchecked under every REGMAP is DEDUCED (notes/assumptions/15.md), and that the last two are packed is too
(notes/assumptions/6.md). -/
def Obligations.SetUncheckedComplete : Prop :=
  (∀ v : Byte, SetCompletes (.setPowerMode v) .powerMode
    (fun cfg => layoutPack (layoutOf cfg .powerMode) [v.toNat]) (fun _ => True)) ∧
  (∀ r g b : Byte, SetCompletes (.setLedCurrent r g b) .ledCurrent (fun _ => [255 - r, 255 - g, 255 - b])
    (fun _ => True)) ∧
  (∀ v : Byte, SetCompletes (.setPatTriggerMode v) .patTriggerMode
    (fun cfg => layoutPack (layoutOf cfg .patTriggerMode) [v.toNat]) (fun _ => True)) ∧
  (∀ v : Byte, SetCompletes (.setMboxOffset v) .mboxOffset
    (fun cfg => layoutPack (layoutOf cfg .mboxOffset) [v.toNat]) (fun _ => True)) ∧
  SetCompletes .setValidate .validate (fun cfg => cfg.validateParams) (fun _ => True) ∧ defaultParams.validateParams = []

/-- SET.PAT_PERIOD (R100, R148): a pair whose gap exceeds 230 is sent packed, and any other pair is refused with PV_PERIOD before
any transport event. The layout is a parameter (notes/assumptions/6.md, 15.md); under the default layout, which the spec takes
from general knowledge (notes/assumptions/4.md), the bytes are exposure then period, four little-endian bytes each. -/
def Obligations.SetPatPeriod : Prop :=
  ∀ exposure period : Word32,
    (exposure.toNat ≤ period.toNat ∧ 230 < period.toNat - exposure.toNat →
      SetCompletes (.setPatPeriod exposure period) .patPeriod
        (fun cfg => layoutPack (layoutOf cfg .patPeriod) [exposure.toNat, period.toNat]) (fun _ => True)) ∧
    layoutPack defaultLayout.patPeriod [exposure.toNat, period.toNat] = le32 exposure.toNat ++ le32 period.toNat ∧
    (¬ (exposure.toNat ≤ period.toNat ∧ 230 < period.toNat - exposure.toNat) →
      ∀ s : State, RefusedWith (.setPatPeriod exposure period) s 3)

/-- An operand that does not fit its field is refused with PV_FIELD_RANGE before any transport event, under every REGMAP (R115;
notes/assumptions/15.md); and each SET's limits under the default layouts (notes/assumptions/4.md). -/
def Obligations.SetFieldRangeRefused : Prop :=
  (∀ s : State,
    (∀ r g b q : Byte, layoutFits (layoutOf s.cfg .ledEnable) [r.toNat, g.toNat, b.toNat, q.toNat] = false →
      RefusedWith (.setLedEnable r g b q) s 7) ∧
    (∀ a w : Byte, layoutFits (layoutOf s.cfg .inputSource) [a.toNat, w.toNat] = false →
      RefusedWith (.setInputSource a w) s 7) ∧
    (∀ v : Byte, layoutFits (layoutOf s.cfg .testPattern) [v.toNat] = false → RefusedWith (.setTestPattern v) s 7) ∧
    (∀ v : Byte, layoutFits (layoutOf s.cfg .displayMode) [v.toNat] = false → RefusedWith (.setDisplayMode v) s 7) ∧
    (∀ a e : Byte, layoutFits (layoutOf s.cfg .gamma) [a.toNat, e.toNat] = false → RefusedWith (.setGamma a e) s 7) ∧
    (∀ v : Byte, layoutFits (layoutOf s.cfg .patDataSource) [v.toNat] = false → RefusedWith (.setPatDataSource v) s 7) ∧
    (∀ v : Byte, layoutFits (layoutOf s.cfg .patSeqStatus) [v.toNat] = false → RefusedWith (.setPatSeqStatus v) s 7) ∧
    (∀ n r k m : Byte, layoutFits (layoutOf s.cfg .patConfig) [n.toNat, r.toNat, k.toNat, m.toNat] = false →
      RefusedWith (.setPatConfig n r k m) s 7) ∧
    ∀ v : Byte, layoutFits (layoutOf s.cfg .mboxMode) [v.toNat] = false → RefusedWith (.setMboxMode v) s 7) ∧
  ∀ s : State, s.cfg.layout = defaultLayout →
    (∀ r g b q : Byte, 1 < r.toNat ∨ 1 < g.toNat ∨ 1 < b.toNat ∨ 1 < q.toNat →
      RefusedWith (.setLedEnable r g b q) s 7) ∧
    (∀ a w : Byte, 7 < a.toNat ∨ 7 < w.toNat → RefusedWith (.setInputSource a w) s 7) ∧
    (∀ v : Byte, 15 < v.toNat → RefusedWith (.setTestPattern v) s 7) ∧
    (∀ v : Byte, 1 < v.toNat → RefusedWith (.setDisplayMode v) s 7) ∧
    (∀ a e : Byte, 3 < a.toNat ∨ 1 < e.toNat → RefusedWith (.setGamma a e) s 7) ∧
    (∀ v : Byte, 3 < v.toNat → RefusedWith (.setPatDataSource v) s 7) ∧
    (∀ v : Byte, 3 < v.toNat → RefusedWith (.setPatSeqStatus v) s 7) ∧
    (∀ n r k m : Byte, 127 < n.toNat ∨ 1 < r.toNat ∨ 63 < m.toNat → RefusedWith (.setPatConfig n r k m) s 7) ∧
    ∀ v : Byte, 3 < v.toNat → RefusedWith (.setMboxMode v) s 7

/-- The registers under the default layouts, which the spec takes from general knowledge but for LED_CURRENT's
(notes/assumptions/4.md): the width of each, what a GET unpacks, what a SET packs for operands that fit, the parts of a version
word, and the two mailbox modes LUT_UPLOAD drives. -/
def Obligations.DefaultLayouts : Prop :=
  (defaultLayout.powerMode.width = some 1 ∧ defaultLayout.ledEnable.width = some 1 ∧
    defaultLayout.ledCurrent.width = some 3 ∧ defaultLayout.inputSource.width = some 1 ∧
    defaultLayout.testPattern.width = some 1 ∧ defaultLayout.displayMode.width = some 1 ∧
    defaultLayout.gamma.width = some 1 ∧ defaultLayout.patTriggerMode.width = some 1 ∧
    defaultLayout.patDataSource.width = some 1 ∧ defaultLayout.patSeqStatus.width = some 1 ∧
    defaultLayout.patPeriod.width = some 8 ∧ defaultLayout.patConfig.width = some 4 ∧
    defaultLayout.mboxMode.width = some 1 ∧ defaultLayout.mboxOffset.width = some 1 ∧
    defaultLayout.validate.width = some 1 ∧ defaultLayout.version.width = some 16 ∧
    defaultLayout.firmwareTag.width = none ∧ defaultLayout.hwStatus.width = some 1 ∧
    defaultLayout.sysStatus.width = some 1 ∧ defaultLayout.mainStatus.width = some 1) ∧
  (defaultNamed.mboxDisable = 0 ∧ defaultNamed.mboxPattern = 2) ∧
  (∀ v : Byte, layoutPack defaultLayout.powerMode [v.toNat] = [v] ∧ layoutPack defaultLayout.patTriggerMode [v.toNat] = [v] ∧
    layoutPack defaultLayout.mboxOffset [v.toNat] = [v]) ∧
  (∀ exposure period : Word32,
    layoutPack defaultLayout.patPeriod [exposure.toNat, period.toNat] = le32 exposure.toNat ++ le32 period.toNat ∧
    layoutUnpack defaultLayout.patPeriod (le32 exposure.toNat ++ le32 period.toNat) = [exposure.toNat, period.toNat]) ∧
  (∀ a b c d : Word32,
    layoutUnpack defaultLayout.version (le32 a.toNat ++ le32 b.toNat ++ le32 c.toNat ++ le32 d.toNat)
      = [a.toNat, b.toNat, c.toNat, d.toNat] ∧
    versionWord defaultParams a.toNat = ⟨a.toNat / 2 ^ 24, a.toNat / 2 ^ 16 % 2 ^ 8, a.toNat % 2 ^ 16⟩) ∧
  (∀ r g b q : Byte, r.toNat ≤ 1 → g.toNat ≤ 1 → b.toNat ≤ 1 → q.toNat ≤ 1 →
    layoutPack defaultLayout.ledEnable [r.toNat, g.toNat, b.toNat, q.toNat]
      = [BitVec.ofNat 8 (r.toNat + 2 * g.toNat + 4 * b.toNat + 8 * q.toNat)]) ∧
  (∀ a w : Byte, a.toNat ≤ 7 → w.toNat ≤ 7 →
    layoutPack defaultLayout.inputSource [a.toNat, w.toNat] = [BitVec.ofNat 8 (a.toNat + 8 * w.toNat)]) ∧
  (∀ v : Byte, v.toNat ≤ 15 → layoutPack defaultLayout.testPattern [v.toNat] = [v]) ∧
  (∀ v : Byte, v.toNat ≤ 1 → layoutPack defaultLayout.displayMode [v.toNat] = [v]) ∧
  (∀ a e : Byte, a.toNat ≤ 3 → e.toNat ≤ 1 →
    layoutPack defaultLayout.gamma [a.toNat, e.toNat] = [BitVec.ofNat 8 (a.toNat + 128 * e.toNat)]) ∧
  (∀ v : Byte, v.toNat ≤ 3 → layoutPack defaultLayout.patDataSource [v.toNat] = [v] ∧
    layoutPack defaultLayout.patSeqStatus [v.toNat] = [v] ∧ layoutPack defaultLayout.mboxMode [v.toNat] = [v]) ∧
  (∀ n r k m : Byte, n.toNat ≤ 127 → r.toNat ≤ 1 → m.toNat ≤ 63 →
    layoutPack defaultLayout.patConfig [n.toNat, r.toNat, k.toNat, m.toNat] = [n, r, k, m]) ∧
  ∀ b c d e : Byte,
    layoutUnpack defaultLayout.powerMode [b] = [b.toNat] ∧
    layoutUnpack defaultLayout.ledEnable [b] = [b.toNat % 2, b.toNat / 2 % 2, b.toNat / 4 % 2, b.toNat / 8 % 2] ∧
    layoutUnpack defaultLayout.inputSource [b] = [b.toNat % 8, b.toNat / 8 % 8] ∧
    layoutUnpack defaultLayout.testPattern [b] = [b.toNat % 16] ∧
    layoutUnpack defaultLayout.displayMode [b] = [b.toNat % 2] ∧
    layoutUnpack defaultLayout.gamma [b] = [b.toNat % 4, b.toNat / 128] ∧
    layoutUnpack defaultLayout.patTriggerMode [b] = [b.toNat] ∧
    layoutUnpack defaultLayout.patDataSource [b] = [b.toNat % 4] ∧
    layoutUnpack defaultLayout.patSeqStatus [b] = [b.toNat % 4] ∧
    layoutUnpack defaultLayout.patConfig [b, c, d, e] = [b.toNat % 128, c.toNat % 2, d.toNat, e.toNat % 64] ∧
    layoutUnpack defaultLayout.mboxMode [b] = [b.toNat % 4] ∧
    layoutUnpack defaultLayout.mboxOffset [b] = [b.toNat] ∧
    layoutUnpack defaultLayout.validate [b] = [b.toNat % 2, b.toNat / 2 % 2, b.toNat / 4 % 2, b.toNat / 8 % 2,
      b.toNat / 16 % 2, b.toNat / 128]

/-- The codec's round trips (R171, which the spec derives from R115 and R122): for every bit-packed layout, field values that fit come back; register bytes come back
exactly when every bit no field covers is 0; LED currents and 32-bit values come back. -/
def Obligations.CodecRoundTrips : Prop :=
  (∀ (l : Layout) (w : Nat) (v : List Nat), layoutWf l = true → l.width = some w → v.length = l.fields.length →
    layoutFits l v = true → layoutUnpack l (layoutPack l v) = v) ∧
  (∀ (l : Layout) (w : Nat) (raw : List Byte), layoutWf l = true → l.width = some w → raw.length = w →
    (layoutPack l (layoutUnpack l raw) = raw ↔
      ∀ n < 8 * w, (∀ f ∈ l.fields, n < fieldOffset f ∨ fieldOffset f + fieldWidth f ≤ n) →
        (leNat raw).testBit n = false)) ∧
  (∀ c : Byte, invertCurrent (invertCurrent c) = c ∧ (invertCurrent c).toNat = 255 - c.toNat) ∧
  ∀ x < 2 ^ 32, u32 (le32 x) 0 = x

/-! ### The mailbox sequencer -/

/-- LUT_UPLOAD completes (R172 to R177), under every REGMAP (notes/assumptions/24.md): with a store of 1 to 128 entries and steps 1
to 3 going through, the four messages are sent in order, mailbox mode PATTERN, offset 0, every entry in index order, mailbox
mode DISABLE, the stores are unchanged, MBOX_STEP is idle, and the response is OK with step mask FF; where step 4 fails, however
it does, OK with 7F. -/
def Obligations.LutUploadCompletes : Prop :=
  ∀ (s : State) (x1 x2 x3 : Exchange) (r4 : Except Cause (List Byte)) (tx4 txRest : List TxAnswer)
    (rx4 rxRest : List RxAnswer) (events4 : List Event),
    4 ≤ s.cfg.p → s.seqCount ≠ 0 → s.seqCount.toNat ≤ 128 → MailboxFits s.cfg →
    Exchange.goesThrough s.cfg (openStream s.cfg) x1 → Exchange.goesThrough s.cfg (offsetStream s.cfg) x2 →
    Exchange.goesThrough s.cfg (lutStream s) x3 → Attempt s.cfg (closeStream s.cfg) r4 tx4 rx4 events4 →
    s.txAnswers = (x1.counts ++ x2.counts ++ x3.counts).map TxAnswer.wrote ++ tx4 ++ txRest →
    s.rxAnswers = (x1.bufs ++ x2.bufs ++ x3.bufs).map RxAnswer.data ++ rx4 ++ rxRest →
    ∃ t, exec .lutUpload s = .next t ∧
      EndedIdle s t [0, 0, closing r4 0xFF 0x7F]
        (x1.events s.cfg (openStream s.cfg) ++ x2.events s.cfg (offsetStream s.cfg) ++ x3.events s.cfg (lutStream s)
          ++ events4) txRest rxRest

/-- LUT_UPLOAD's outcomes (R172, R177): an empty store is refused with PV_EMPTY_LUT before any transport event; otherwise the step
mask is FF or 7F with status OK, or BF, 3F, 9B, 1B, 89 or 09 with a failure's status, the stores are unchanged whatever the outcome,
and MBOX_STEP is idle (R178, R179). Each mask and each status is that of R177's row: which step's transaction was the first to
fail, with what, and whether step 4's went through, whatever the adapter answers. -/
def Obligations.StepMasks : Prop :=
  (∀ s : State, s.seqCount = 0 → RefusedWith .lutUpload s 10) ∧
  (∀ (s v : State) (first : Option Cause) (mask : Byte), s.seqCount ≠ 0 → UploadRow s first mask v →
    ∃ t, exec .lutUpload s = .next t ∧ Answered s t (uploadResponse first mask) ∧ StoresKept s t ∧ t.mboxStep = .idle ∧
      t.trace = v.trace ∧ t.txAnswers = v.txAnswers ∧ t.rxAnswers = v.rxAnswers) ∧
  ∀ s t : State, s.seqCount ≠ 0 → exec .lutUpload s = .next t →
    ∃ mask, Answered s t [t.lastStatus, t.lastCause, mask] ∧ StoresKept s t ∧ t.mboxStep = .idle ∧
      ((t.lastStatus = 0 ∧ t.lastCause = 0 ∧ mask ∈ [0xFF, 0x7F]) ∨
        (t.lastStatus ≠ 0 ∧ t.lastCause ≠ 0 ∧ mask ∈ [0xBF, 0x3F, 0x9B, 0x1B, 0x89, 0x09]))

/-- Step 4 after a failure (R176, R179): however step 1, 2 or 3 fails (a write failure, a timeout, another receive failure, a
length above 512, a NACK, an empty read-type reply), the later steps up to 3 are not issued, step 4 is, and it ends in its own
way. The response is the failed step's status and cause with the step mask of R177, and the trace is that of the steps issued,
step 4's packets last. Under every REGMAP (notes/assumptions/24.md). -/
def Obligations.MailboxClosedAfterFailure : Prop :=
  ∀ (s : State) (c : Cause) (r4 : Except Cause (List Byte)) (tx tx4 txRest : List TxAnswer) (rx rx4 rxRest : List RxAnswer)
    (events events4 : List Event),
    4 ≤ s.cfg.p → s.seqCount ≠ 0 → s.seqCount.toNat ≤ 128 → MailboxFits s.cfg →
    Attempt s.cfg (closeStream s.cfg) r4 tx4 rx4 events4 →
    (Attempt s.cfg (openStream s.cfg) (.error c) tx rx events →
      s.txAnswers = tx ++ tx4 ++ txRest → s.rxAnswers = rx ++ rx4 ++ rxRest →
      ∃ t, exec .lutUpload s = .next t ∧
        EndedIdle s t (failureCodes c ++ [closing r4 0x89 0x09]) (events ++ events4) txRest rxRest) ∧
    (∀ x1 : Exchange, Exchange.goesThrough s.cfg (openStream s.cfg) x1 →
      Attempt s.cfg (offsetStream s.cfg) (.error c) tx rx events →
      s.txAnswers = x1.counts.map TxAnswer.wrote ++ tx ++ tx4 ++ txRest →
      s.rxAnswers = x1.bufs.map RxAnswer.data ++ rx ++ rx4 ++ rxRest →
      ∃ t, exec .lutUpload s = .next t ∧
        EndedIdle s t (failureCodes c ++ [closing r4 0x9B 0x1B])
          (x1.events s.cfg (openStream s.cfg) ++ events ++ events4) txRest rxRest) ∧
    ∀ x1 x2 : Exchange, Exchange.goesThrough s.cfg (openStream s.cfg) x1 → Exchange.goesThrough s.cfg (offsetStream s.cfg) x2 →
      Attempt s.cfg (lutStream s) (.error c) tx rx events →
      s.txAnswers = (x1.counts ++ x2.counts).map TxAnswer.wrote ++ tx ++ tx4 ++ txRest →
      s.rxAnswers = (x1.bufs ++ x2.bufs).map RxAnswer.data ++ rx ++ rx4 ++ rxRest →
      ∃ t, exec .lutUpload s = .next t ∧
        EndedIdle s t (failureCodes c ++ [closing r4 0xBF 0x3F])
          (x1.events s.cfg (openStream s.cfg) ++ x2.events s.cfg (offsetStream s.cfg) ++ events ++ events4) txRest rxRest

/-! ### The textual syntax -/

/-- The pseudo-instructions expand to the requests listed, in order (R79), with the numbers REGMAP gives the values they name;
those of R79's table under the default REGMAP, which the spec takes from general knowledge (notes/assumptions/4.md). The reader of
text is the model's own (notes/assumptions/17.md). -/
def Obligations.PseudoInstructions : Prop :=
  ∀ cfg : Params,
    assemble cfg "PAT.STOP" = some [.setPatSeqStatus cfg.named.patStop] ∧
    assemble cfg "PAT.PAUSE" = some [.setPatSeqStatus cfg.named.patPause] ∧
    assemble cfg "PAT.START" = some [.setPatSeqStatus cfg.named.patStart] ∧
    assemble cfg "MODE.VIDEO" = some [.setDisplayMode cfg.named.displayVideo] ∧
    assemble cfg "MODE.PATTERN" = some [.setDisplayMode cfg.named.displayPattern] ∧
    assemble cfg "MBOX.CLOSE" = some [.setMboxMode cfg.named.mboxDisable] ∧
    assemble cfg "VALIDATE" = some [.setValidate] ∧
    assemble cfg "SEQ.LOAD idx=0, depth=8, led=2; idx=1, depth=8, led=1"
      = some [.seqClear, .seqAdd ⟨0, 0, 8, 2, 0, 0, 0, 0⟩, .seqAdd ⟨0, 1, 8, 1, 0, 0, 0, 0⟩] ∧
    assemble cfg "MSG.SEND rw=W, data=01 0B" = some [.msgWrite ⟨0x00, 0x00, [0x01, 0x0B]⟩] ∧
    [defaultNamed.patStop, defaultNamed.patPause, defaultNamed.patStart, defaultNamed.displayVideo,
      defaultNamed.displayPattern, defaultNamed.mboxDisable] = [0, 1, 2, 0, 1, 0]
end

