-- ==== Sys2Proof/Laws/Memory.lean ====
section
/-! SUPPORT. The stores: read after write, and the canonical form that every store operation keeps. -/

namespace Sys2Proof.Machine

variable {α : Type}

/-- A read of the index written gives the value written. -/
@[simp] theorem Memory.read_write_same (m : List (Nat × α)) (i : Nat) (v : α) :
    Memory.read (Memory.write m i v) i = some v := by
  induction m with
  | nil => simp [Memory.write, Memory.read]
  | cons c rest ih =>
    obtain ⟨j, w⟩ := c
    simp only [Memory.write]
    split
    · simp [Memory.read]
    · split
      · simp [Memory.read]
      · simp [Memory.read, *]

/-- A write leaves every other index alone. -/
theorem Memory.read_write_other (m : List (Nat × α)) (i k : Nat) (v : α) (h : k ≠ i) :
    Memory.read (Memory.write m i v) k = Memory.read m k := by
  induction m with
  | nil => simp [Memory.write, Memory.read, h]
  | cons c rest ih =>
    obtain ⟨j, w⟩ := c
    simp only [Memory.write]
    split
    · simp [Memory.read, h]
    · split
      · subst_vars; simp [Memory.read, h]
      · simp [Memory.read, ih]

/-- A write keeps the indices rising. -/
theorem Memory.risingFrom_write (m : List (Nat × α)) (lo i : Nat) (v : α) (hm : Memory.risingFrom lo m = true)
    (hi : lo ≤ i) : Memory.risingFrom lo (Memory.write m i v) = true := by
  induction m generalizing lo with
  | nil => simp [Memory.write, Memory.risingFrom, hi]
  | cons c rest ih =>
    obtain ⟨j, w⟩ := c
    simp only [Memory.risingFrom, Bool.and_eq_true, decide_eq_true_eq] at hm
    simp only [Memory.write]
    split
    · simp only [Memory.risingFrom, Bool.and_eq_true, decide_eq_true_eq]
      exact ⟨hi, by omega, hm.2⟩
    · split
      · subst_vars
        simp only [Memory.risingFrom, Bool.and_eq_true, decide_eq_true_eq]
        exact ⟨hi, hm.2⟩
      · simp only [Memory.risingFrom, Bool.and_eq_true, decide_eq_true_eq]
        exact ⟨hm.1, ih _ hm.2 (by omega)⟩

/-- A write below the capacity keeps every index below it. -/
theorem Memory.below_write (m : List (Nat × α)) (cap i : Nat) (v : α)
    (hm : (m.all fun c => decide (c.1 < cap)) = true) (hi : i < cap) :
    ((Memory.write m i v).all fun c => decide (c.1 < cap)) = true := by
  induction m with
  | nil => simp [Memory.write, hi]
  | cons c rest ih =>
    obtain ⟨j, w⟩ := c
    simp only [List.all_cons, Bool.and_eq_true, decide_eq_true_eq] at hm
    simp only [Memory.write]
    split
    · simp only [List.all_cons, Bool.and_eq_true, decide_eq_true_eq]; exact ⟨hi, hm⟩
    · split
      · simp only [List.all_cons, Bool.and_eq_true, decide_eq_true_eq]; exact ⟨hi, hm.2⟩
      · simp only [List.all_cons, Bool.and_eq_true, decide_eq_true_eq]; exact ⟨hm.1, ih hm.2⟩

/-- The one write operation keeps the canonical form. -/
theorem Memory.wf_write (m : List (Nat × α)) (cap i : Nat) (v : α) (hm : Memory.wf cap m = true) (hi : i < cap) :
    Memory.wf cap (Memory.write m i v) = true := by
  simp only [Memory.wf, Bool.and_eq_true] at hm ⊢
  exact ⟨Memory.risingFrom_write m 0 i v hm.1 (Nat.zero_le i), Memory.below_write m cap i v hm.2 hi⟩

theorem reset_seq_wf : Memory.wf Config.seqCap State.reset.seqEntry = true := rfl
theorem reset_vx_wf : Memory.wf Config.vxCap State.reset.vxEntry = true := rfl

end Sys2Proof.Machine
end

