-- ==== Sys2Proof/Laws/State.lean ====
section
/-! SUPPORT. What each named update of the state does to each field. -/

namespace Sys2Proof.Machine

/-! ### `record` -/

@[simp] theorem State.record_cfg (s : State) (e : Event) : (s.record e).cfg = s.cfg := rfl
@[simp] theorem State.record_requests (s : State) (e : Event) : (s.record e).requests = s.requests := rfl
@[simp] theorem State.record_responses (s : State) (e : Event) : (s.record e).responses = s.responses := rfl
@[simp] theorem State.record_lastStatus (s : State) (e : Event) : (s.record e).lastStatus = s.lastStatus := rfl
@[simp] theorem State.record_lastCause (s : State) (e : Event) : (s.record e).lastCause = s.lastCause := rfl
@[simp] theorem State.record_seqEntry (s : State) (e : Event) : (s.record e).seqEntry = s.seqEntry := rfl
@[simp] theorem State.record_seqCount (s : State) (e : Event) : (s.record e).seqCount = s.seqCount := rfl
@[simp] theorem State.record_seqExposure (s : State) (e : Event) : (s.record e).seqExposure = s.seqExposure := rfl
@[simp] theorem State.record_seqPeriod (s : State) (e : Event) : (s.record e).seqPeriod = s.seqPeriod := rfl
@[simp] theorem State.record_vxEntry (s : State) (e : Event) : (s.record e).vxEntry = s.vxEntry := rfl
@[simp] theorem State.record_vxCount (s : State) (e : Event) : (s.record e).vxCount = s.vxCount := rfl
@[simp] theorem State.record_txbuf (s : State) (e : Event) : (s.record e).txbuf = s.txbuf := rfl
@[simp] theorem State.record_rxbuf (s : State) (e : Event) : (s.record e).rxbuf = s.rxbuf := rfl
@[simp] theorem State.record_mboxStep (s : State) (e : Event) : (s.record e).mboxStep = s.mboxStep := rfl
@[simp] theorem State.record_txAnswers (s : State) (e : Event) : (s.record e).txAnswers = s.txAnswers := rfl
@[simp] theorem State.record_rxAnswers (s : State) (e : Event) : (s.record e).rxAnswers = s.rxAnswers := rfl
@[simp] theorem State.record_trace (s : State) (e : Event) : (s.record e).trace = s.trace ++ [e] := rfl
@[simp] theorem State.record_freeIndex (s : State) (e : Event) : (s.record e).freeIndex = s.freeIndex := rfl

/-! ### `closeAdapter` -/

@[simp] theorem State.closeAdapter_cfg (s : State) : (s.closeAdapter).cfg = s.cfg := rfl
@[simp] theorem State.closeAdapter_requests (s : State) : (s.closeAdapter).requests = s.requests := rfl
@[simp] theorem State.closeAdapter_responses (s : State) : (s.closeAdapter).responses = s.responses := rfl
@[simp] theorem State.closeAdapter_lastStatus (s : State) : (s.closeAdapter).lastStatus = s.lastStatus := rfl
@[simp] theorem State.closeAdapter_lastCause (s : State) : (s.closeAdapter).lastCause = s.lastCause := rfl
@[simp] theorem State.closeAdapter_seqEntry (s : State) : (s.closeAdapter).seqEntry = s.seqEntry := rfl
@[simp] theorem State.closeAdapter_seqCount (s : State) : (s.closeAdapter).seqCount = s.seqCount := rfl
@[simp] theorem State.closeAdapter_seqExposure (s : State) : (s.closeAdapter).seqExposure = s.seqExposure := rfl
@[simp] theorem State.closeAdapter_seqPeriod (s : State) : (s.closeAdapter).seqPeriod = s.seqPeriod := rfl
@[simp] theorem State.closeAdapter_vxEntry (s : State) : (s.closeAdapter).vxEntry = s.vxEntry := rfl
@[simp] theorem State.closeAdapter_vxCount (s : State) : (s.closeAdapter).vxCount = s.vxCount := rfl
@[simp] theorem State.closeAdapter_txbuf (s : State) : (s.closeAdapter).txbuf = s.txbuf := rfl
@[simp] theorem State.closeAdapter_rxbuf (s : State) : (s.closeAdapter).rxbuf = s.rxbuf := rfl
@[simp] theorem State.closeAdapter_mboxStep (s : State) : (s.closeAdapter).mboxStep = s.mboxStep := rfl
@[simp] theorem State.closeAdapter_txAnswers (s : State) : (s.closeAdapter).txAnswers = s.txAnswers := rfl
@[simp] theorem State.closeAdapter_rxAnswers (s : State) : (s.closeAdapter).rxAnswers = s.rxAnswers := rfl
@[simp] theorem State.closeAdapter_trace (s : State) : (s.closeAdapter).trace = s.trace ++ [Event.close] := rfl
@[simp] theorem State.closeAdapter_freeIndex (s : State) : (s.closeAdapter).freeIndex = s.freeIndex := rfl

/-! ### `present` -/

@[simp] theorem State.present_cfg (s : State) (r : List Byte) : (s.present r).cfg = s.cfg := rfl
@[simp] theorem State.present_requests (s : State) (r : List Byte) : (s.present r).requests = r :: s.requests := rfl
@[simp] theorem State.present_responses (s : State) (r : List Byte) : (s.present r).responses = s.responses := rfl
@[simp] theorem State.present_lastStatus (s : State) (r : List Byte) : (s.present r).lastStatus = s.lastStatus := rfl
@[simp] theorem State.present_lastCause (s : State) (r : List Byte) : (s.present r).lastCause = s.lastCause := rfl
@[simp] theorem State.present_seqEntry (s : State) (r : List Byte) : (s.present r).seqEntry = s.seqEntry := rfl
@[simp] theorem State.present_seqCount (s : State) (r : List Byte) : (s.present r).seqCount = s.seqCount := rfl
@[simp] theorem State.present_seqExposure (s : State) (r : List Byte) : (s.present r).seqExposure = s.seqExposure := rfl
@[simp] theorem State.present_seqPeriod (s : State) (r : List Byte) : (s.present r).seqPeriod = s.seqPeriod := rfl
@[simp] theorem State.present_vxEntry (s : State) (r : List Byte) : (s.present r).vxEntry = s.vxEntry := rfl
@[simp] theorem State.present_vxCount (s : State) (r : List Byte) : (s.present r).vxCount = s.vxCount := rfl
@[simp] theorem State.present_txbuf (s : State) (r : List Byte) : (s.present r).txbuf = s.txbuf := rfl
@[simp] theorem State.present_rxbuf (s : State) (r : List Byte) : (s.present r).rxbuf = s.rxbuf := rfl
@[simp] theorem State.present_mboxStep (s : State) (r : List Byte) : (s.present r).mboxStep = s.mboxStep := rfl
@[simp] theorem State.present_txAnswers (s : State) (r : List Byte) : (s.present r).txAnswers = s.txAnswers := rfl
@[simp] theorem State.present_rxAnswers (s : State) (r : List Byte) : (s.present r).rxAnswers = s.rxAnswers := rfl
@[simp] theorem State.present_trace (s : State) (r : List Byte) : (s.present r).trace = s.trace := rfl
@[simp] theorem State.present_freeIndex (s : State) (r : List Byte) : (s.present r).freeIndex = s.freeIndex := rfl

/-! ### `respond` -/

@[simp] theorem State.respond_cfg (s : State) (st ca : Byte) (res : List Byte) :
    (s.respond st ca res).cfg = s.cfg := rfl
@[simp] theorem State.respond_requests (s : State) (st ca : Byte) (res : List Byte) :
    (s.respond st ca res).requests = s.requests := rfl
@[simp] theorem State.respond_responses (s : State) (st ca : Byte) (res : List Byte) :
    (s.respond st ca res).responses = s.responses ++ [st :: ca :: res] := rfl
@[simp] theorem State.respond_lastStatus (s : State) (st ca : Byte) (res : List Byte) :
    (s.respond st ca res).lastStatus = st := rfl
@[simp] theorem State.respond_lastCause (s : State) (st ca : Byte) (res : List Byte) :
    (s.respond st ca res).lastCause = ca := rfl
@[simp] theorem State.respond_seqEntry (s : State) (st ca : Byte) (res : List Byte) :
    (s.respond st ca res).seqEntry = s.seqEntry := rfl
@[simp] theorem State.respond_seqCount (s : State) (st ca : Byte) (res : List Byte) :
    (s.respond st ca res).seqCount = s.seqCount := rfl
@[simp] theorem State.respond_seqExposure (s : State) (st ca : Byte) (res : List Byte) :
    (s.respond st ca res).seqExposure = s.seqExposure := rfl
@[simp] theorem State.respond_seqPeriod (s : State) (st ca : Byte) (res : List Byte) :
    (s.respond st ca res).seqPeriod = s.seqPeriod := rfl
@[simp] theorem State.respond_vxEntry (s : State) (st ca : Byte) (res : List Byte) :
    (s.respond st ca res).vxEntry = s.vxEntry := rfl
@[simp] theorem State.respond_vxCount (s : State) (st ca : Byte) (res : List Byte) :
    (s.respond st ca res).vxCount = s.vxCount := rfl
@[simp] theorem State.respond_txbuf (s : State) (st ca : Byte) (res : List Byte) :
    (s.respond st ca res).txbuf = (Config.idleTxbuf s.freeIndex).take txbufMax := rfl
@[simp] theorem State.respond_rxbuf (s : State) (st ca : Byte) (res : List Byte) :
    (s.respond st ca res).rxbuf = (Config.idleRxbuf s.freeIndex).take (rxbufMax s.cfg) := rfl
@[simp] theorem State.respond_mboxStep (s : State) (st ca : Byte) (res : List Byte) :
    (s.respond st ca res).mboxStep = s.mboxStep := rfl
@[simp] theorem State.respond_txAnswers (s : State) (st ca : Byte) (res : List Byte) :
    (s.respond st ca res).txAnswers = s.txAnswers := rfl
@[simp] theorem State.respond_rxAnswers (s : State) (st ca : Byte) (res : List Byte) :
    (s.respond st ca res).rxAnswers = s.rxAnswers := rfl
@[simp] theorem State.respond_trace (s : State) (st ca : Byte) (res : List Byte) :
    (s.respond st ca res).trace = s.trace := rfl
@[simp] theorem State.respond_freeIndex (s : State) (st ca : Byte) (res : List Byte) :
    (s.respond st ca res).freeIndex = s.freeIndex + 1 := rfl

/-! ### `succeed` -/

@[simp] theorem State.succeed_cfg (s : State) (res : List Byte) : (s.succeed res).cfg = s.cfg := rfl
@[simp] theorem State.succeed_requests (s : State) (res : List Byte) : (s.succeed res).requests = s.requests := rfl
@[simp] theorem State.succeed_responses (s : State) (res : List Byte) :
    (s.succeed res).responses = s.responses ++ [0 :: 0 :: res] := rfl
@[simp] theorem State.succeed_lastStatus (s : State) (res : List Byte) : (s.succeed res).lastStatus = 0 := rfl
@[simp] theorem State.succeed_lastCause (s : State) (res : List Byte) : (s.succeed res).lastCause = 0 := rfl
@[simp] theorem State.succeed_seqEntry (s : State) (res : List Byte) : (s.succeed res).seqEntry = s.seqEntry := rfl
@[simp] theorem State.succeed_seqCount (s : State) (res : List Byte) : (s.succeed res).seqCount = s.seqCount := rfl
@[simp] theorem State.succeed_seqExposure (s : State) (res : List Byte) :
    (s.succeed res).seqExposure = s.seqExposure := rfl
@[simp] theorem State.succeed_seqPeriod (s : State) (res : List Byte) : (s.succeed res).seqPeriod = s.seqPeriod := rfl
@[simp] theorem State.succeed_vxEntry (s : State) (res : List Byte) : (s.succeed res).vxEntry = s.vxEntry := rfl
@[simp] theorem State.succeed_vxCount (s : State) (res : List Byte) : (s.succeed res).vxCount = s.vxCount := rfl
@[simp] theorem State.succeed_txbuf (s : State) (res : List Byte) :
    (s.succeed res).txbuf = (Config.idleTxbuf s.freeIndex).take txbufMax := rfl
@[simp] theorem State.succeed_rxbuf (s : State) (res : List Byte) :
    (s.succeed res).rxbuf = (Config.idleRxbuf s.freeIndex).take (rxbufMax s.cfg) := rfl
@[simp] theorem State.succeed_mboxStep (s : State) (res : List Byte) : (s.succeed res).mboxStep = s.mboxStep := rfl
@[simp] theorem State.succeed_txAnswers (s : State) (res : List Byte) : (s.succeed res).txAnswers = s.txAnswers := rfl
@[simp] theorem State.succeed_rxAnswers (s : State) (res : List Byte) : (s.succeed res).rxAnswers = s.rxAnswers := rfl
@[simp] theorem State.succeed_trace (s : State) (res : List Byte) : (s.succeed res).trace = s.trace := rfl
@[simp] theorem State.succeed_freeIndex (s : State) (res : List Byte) :
    (s.succeed res).freeIndex = s.freeIndex + 1 := rfl

/-! ### `raise` -/

@[simp] theorem State.raise_cfg (s : State) (c : Cause) (res : List Byte) : (s.raise c res).cfg = s.cfg := rfl
@[simp] theorem State.raise_requests (s : State) (c : Cause) (res : List Byte) :
    (s.raise c res).requests = s.requests := rfl
@[simp] theorem State.raise_responses (s : State) (c : Cause) (res : List Byte) :
    (s.raise c res).responses = s.responses ++ [Status.code (Cause.status c) :: Cause.code c :: res] := rfl
@[simp] theorem State.raise_lastStatus (s : State) (c : Cause) (res : List Byte) :
    (s.raise c res).lastStatus = Status.code (Cause.status c) := rfl
@[simp] theorem State.raise_lastCause (s : State) (c : Cause) (res : List Byte) :
    (s.raise c res).lastCause = Cause.code c := rfl
@[simp] theorem State.raise_seqEntry (s : State) (c : Cause) (res : List Byte) :
    (s.raise c res).seqEntry = s.seqEntry := rfl
@[simp] theorem State.raise_seqCount (s : State) (c : Cause) (res : List Byte) :
    (s.raise c res).seqCount = s.seqCount := rfl
@[simp] theorem State.raise_seqExposure (s : State) (c : Cause) (res : List Byte) :
    (s.raise c res).seqExposure = s.seqExposure := rfl
@[simp] theorem State.raise_seqPeriod (s : State) (c : Cause) (res : List Byte) :
    (s.raise c res).seqPeriod = s.seqPeriod := rfl
@[simp] theorem State.raise_vxEntry (s : State) (c : Cause) (res : List Byte) :
    (s.raise c res).vxEntry = s.vxEntry := rfl
@[simp] theorem State.raise_vxCount (s : State) (c : Cause) (res : List Byte) :
    (s.raise c res).vxCount = s.vxCount := rfl
@[simp] theorem State.raise_txbuf (s : State) (c : Cause) (res : List Byte) :
    (s.raise c res).txbuf = (Config.idleTxbuf s.freeIndex).take txbufMax := rfl
@[simp] theorem State.raise_rxbuf (s : State) (c : Cause) (res : List Byte) :
    (s.raise c res).rxbuf = (Config.idleRxbuf s.freeIndex).take (rxbufMax s.cfg) := rfl
@[simp] theorem State.raise_mboxStep (s : State) (c : Cause) (res : List Byte) :
    (s.raise c res).mboxStep = MboxStep.idle := rfl
@[simp] theorem State.raise_txAnswers (s : State) (c : Cause) (res : List Byte) :
    (s.raise c res).txAnswers = s.txAnswers := rfl
@[simp] theorem State.raise_rxAnswers (s : State) (c : Cause) (res : List Byte) :
    (s.raise c res).rxAnswers = s.rxAnswers := rfl
@[simp] theorem State.raise_trace (s : State) (c : Cause) (res : List Byte) : (s.raise c res).trace = s.trace := rfl
@[simp] theorem State.raise_freeIndex (s : State) (c : Cause) (res : List Byte) :
    (s.raise c res).freeIndex = s.freeIndex + 1 := rfl

/-! ### `appendSeq` -/

@[simp] theorem State.appendSeq_cfg (s : State) (p : Pattern) : (s.appendSeq p).cfg = s.cfg := rfl
@[simp] theorem State.appendSeq_requests (s : State) (p : Pattern) : (s.appendSeq p).requests = s.requests := rfl
@[simp] theorem State.appendSeq_responses (s : State) (p : Pattern) : (s.appendSeq p).responses = s.responses := rfl
@[simp] theorem State.appendSeq_lastStatus (s : State) (p : Pattern) : (s.appendSeq p).lastStatus = s.lastStatus := rfl
@[simp] theorem State.appendSeq_lastCause (s : State) (p : Pattern) : (s.appendSeq p).lastCause = s.lastCause := rfl
@[simp] theorem State.appendSeq_seqEntry (s : State) (p : Pattern) :
    (s.appendSeq p).seqEntry = Memory.write s.seqEntry s.seqCount.toNat (storedWord (admitted (s.seqCount == 0) p)) := rfl
@[simp] theorem State.appendSeq_seqCount (s : State) (p : Pattern) : (s.appendSeq p).seqCount = s.seqCount + 1 := rfl
@[simp] theorem State.appendSeq_seqExposure (s : State) (p : Pattern) :
    (s.appendSeq p).seqExposure = s.seqExposure := rfl
@[simp] theorem State.appendSeq_seqPeriod (s : State) (p : Pattern) : (s.appendSeq p).seqPeriod = s.seqPeriod := rfl
@[simp] theorem State.appendSeq_vxEntry (s : State) (p : Pattern) : (s.appendSeq p).vxEntry = s.vxEntry := rfl
@[simp] theorem State.appendSeq_vxCount (s : State) (p : Pattern) : (s.appendSeq p).vxCount = s.vxCount := rfl
@[simp] theorem State.appendSeq_txbuf (s : State) (p : Pattern) : (s.appendSeq p).txbuf = s.txbuf := rfl
@[simp] theorem State.appendSeq_rxbuf (s : State) (p : Pattern) : (s.appendSeq p).rxbuf = s.rxbuf := rfl
@[simp] theorem State.appendSeq_mboxStep (s : State) (p : Pattern) : (s.appendSeq p).mboxStep = s.mboxStep := rfl
@[simp] theorem State.appendSeq_txAnswers (s : State) (p : Pattern) : (s.appendSeq p).txAnswers = s.txAnswers := rfl
@[simp] theorem State.appendSeq_rxAnswers (s : State) (p : Pattern) : (s.appendSeq p).rxAnswers = s.rxAnswers := rfl
@[simp] theorem State.appendSeq_trace (s : State) (p : Pattern) : (s.appendSeq p).trace = s.trace := rfl
@[simp] theorem State.appendSeq_freeIndex (s : State) (p : Pattern) : (s.appendSeq p).freeIndex = s.freeIndex := rfl

/-! ### `appendVx` -/

@[simp] theorem State.appendVx_cfg (s : State) (p : Pattern) (x q : Word32) : (s.appendVx p x q).cfg = s.cfg := rfl
@[simp] theorem State.appendVx_requests (s : State) (p : Pattern) (x q : Word32) :
    (s.appendVx p x q).requests = s.requests := rfl
@[simp] theorem State.appendVx_responses (s : State) (p : Pattern) (x q : Word32) :
    (s.appendVx p x q).responses = s.responses := rfl
@[simp] theorem State.appendVx_lastStatus (s : State) (p : Pattern) (x q : Word32) :
    (s.appendVx p x q).lastStatus = s.lastStatus := rfl
@[simp] theorem State.appendVx_lastCause (s : State) (p : Pattern) (x q : Word32) :
    (s.appendVx p x q).lastCause = s.lastCause := rfl
@[simp] theorem State.appendVx_seqEntry (s : State) (p : Pattern) (x q : Word32) :
    (s.appendVx p x q).seqEntry = s.seqEntry := rfl
@[simp] theorem State.appendVx_seqCount (s : State) (p : Pattern) (x q : Word32) :
    (s.appendVx p x q).seqCount = s.seqCount := rfl
@[simp] theorem State.appendVx_seqExposure (s : State) (p : Pattern) (x q : Word32) :
    (s.appendVx p x q).seqExposure = s.seqExposure := rfl
@[simp] theorem State.appendVx_seqPeriod (s : State) (p : Pattern) (x q : Word32) :
    (s.appendVx p x q).seqPeriod = s.seqPeriod := rfl
@[simp] theorem State.appendVx_vxEntry (s : State) (p : Pattern) (x q : Word32) :
    (s.appendVx p x q).vxEntry = Memory.write s.vxEntry s.vxCount.toNat ⟨storedWord (admitted (s.vxCount == 0) p), x, q⟩ :=
  rfl
@[simp] theorem State.appendVx_vxCount (s : State) (p : Pattern) (x q : Word32) :
    (s.appendVx p x q).vxCount = s.vxCount + 1 := rfl
@[simp] theorem State.appendVx_txbuf (s : State) (p : Pattern) (x q : Word32) :
    (s.appendVx p x q).txbuf = s.txbuf := rfl
@[simp] theorem State.appendVx_rxbuf (s : State) (p : Pattern) (x q : Word32) :
    (s.appendVx p x q).rxbuf = s.rxbuf := rfl
@[simp] theorem State.appendVx_mboxStep (s : State) (p : Pattern) (x q : Word32) :
    (s.appendVx p x q).mboxStep = s.mboxStep := rfl
@[simp] theorem State.appendVx_txAnswers (s : State) (p : Pattern) (x q : Word32) :
    (s.appendVx p x q).txAnswers = s.txAnswers := rfl
@[simp] theorem State.appendVx_rxAnswers (s : State) (p : Pattern) (x q : Word32) :
    (s.appendVx p x q).rxAnswers = s.rxAnswers := rfl
@[simp] theorem State.appendVx_trace (s : State) (p : Pattern) (x q : Word32) :
    (s.appendVx p x q).trace = s.trace := rfl
@[simp] theorem State.appendVx_freeIndex (s : State) (p : Pattern) (x q : Word32) :
    (s.appendVx p x q).freeIndex = s.freeIndex := rfl

end Sys2Proof.Machine
end

