-- ==== Sys2Proof/Laws/Ops.lean ====
section
/-! SUPPORT. What each shared operation can do, said once: the transport port, the end of a request, the request port. -/

namespace Sys2Proof.Machine

/-- From `s` to `t` nothing happened but transport: the buffers, the adapter's answers and the free values may have changed,
and the trace may have grown. -/
structure Traffic (s t : State) : Prop where
  cfg : t.cfg = s.cfg
  requests : t.requests = s.requests
  responses : t.responses = s.responses
  lastStatus : t.lastStatus = s.lastStatus
  lastCause : t.lastCause = s.lastCause
  stores : StoresKept s t
  mboxStep : t.mboxStep = s.mboxStep
  trace : ∃ es, t.trace = s.trace ++ es

theorem StoresKept.refl (s : State) : StoresKept s s := ⟨⟨rfl, rfl, rfl, rfl⟩, rfl, rfl⟩

theorem StoresKept.trans {s t u : State} (h : StoresKept s t) (k : StoresKept t u) : StoresKept s u :=
  ⟨⟨k.1.1.trans h.1.1, k.1.2.1.trans h.1.2.1, k.1.2.2.1.trans h.1.2.2.1, k.1.2.2.2.trans h.1.2.2.2⟩,
    k.2.1.trans h.2.1, k.2.2.trans h.2.2⟩

theorem Traffic.refl (s : State) : Traffic s s :=
  ⟨rfl, rfl, rfl, rfl, rfl, StoresKept.refl s, rfl, [], by simp⟩

theorem Traffic.trans {s t u : State} (h : Traffic s t) (k : Traffic t u) : Traffic s u := by
  obtain ⟨es, he⟩ := h.trace
  obtain ⟨fs, hf⟩ := k.trace
  exact ⟨k.cfg.trans h.cfg, k.requests.trans h.requests, k.responses.trans h.responses,
    k.lastStatus.trans h.lastStatus, k.lastCause.trans h.lastCause, h.stores.trans k.stores,
    k.mboxStep.trans h.mboxStep, es ++ fs, by rw [hf, he, List.append_assoc]⟩

/-- Recording an event is transport. -/
theorem Traffic.record (s : State) (e : Event) : Traffic s (s.record e) :=
  ⟨rfl, rfl, rfl, rfl, rfl, StoresKept.refl s, rfl, [e], rfl⟩

/-- Filling TXBUF is transport. -/
theorem Traffic.txbuf (s : State) (b : List Byte) : Traffic s { s with txbuf := b } :=
  ⟨rfl, rfl, rfl, rfl, rfl, StoresKept.refl s, rfl, [], by simp⟩

/-- Filling RXBUF is transport. -/
theorem Traffic.rxbuf (s : State) (b : List Byte) : Traffic s { s with rxbuf := b } :=
  ⟨rfl, rfl, rfl, rfl, rfl, StoresKept.refl s, rfl, [], by simp⟩

/-! ### The adapter's answers -/

theorem nextTx_traffic (s : State) : Traffic s s.nextTx.2 := by
  unfold State.nextTx
  split <;> exact ⟨rfl, rfl, rfl, rfl, rfl, StoresKept.refl s, rfl, [], by simp⟩

theorem nextRx_traffic (s : State) : Traffic s s.nextRx.2 := by
  unfold State.nextRx
  split <;> exact ⟨rfl, rfl, rfl, rfl, rfl, StoresKept.refl s, rfl, [], by simp⟩

/-- Everything `TxPacket` does: it takes one answer, within its typing, and records one event with it. -/
theorem txPacket_spec (s : State) (buf : List Byte) :
    s.txPacket buf = (s.nextTx.1, s.nextTx.2.record (.tx buf s.nextTx.1)) := rfl

/-- Everything `RxPacket` does: it takes one answer, within its typing, and records one event with it. -/
theorem rxPacket_spec (s : State) : s.rxPacket = (s.nextRx.1, s.nextRx.2.record (.rx s.nextRx.1)) := rfl

theorem txPacket_traffic (s : State) (buf : List Byte) : Traffic s (s.txPacket buf).2 :=
  (nextTx_traffic s).trans (Traffic.record _ _)

theorem rxPacket_traffic (s : State) : Traffic s s.rxPacket.2 :=
  (nextRx_traffic s).trans (Traffic.record _ _)

/-- The typing of a transmit answer (R18). -/
theorem typedTx_le (cfg : Params) (a : TxAnswer) (n : Nat) (h : typedTx cfg a = .wrote n) :
    n ≤ Config.leadOut + cfg.p := by
  cases a with
  | failed => simp [typedTx] at h
  | wrote k => simp only [typedTx, TxAnswer.wrote.injEq] at h; omega

/-- The typing of a receive answer (R19). -/
theorem typedRx_length (cfg : Params) (a : RxAnswer) (b : List Byte) (h : typedRx cfg a = .data b) :
    b.length = cfg.inLead.val + cfg.p := by
  cases a with
  | data k => simp only [typedRx, RxAnswer.data.injEq] at h; subst h; simp [fitBuffer]
  | timeout => simp [typedRx] at h
  | error => simp [typedRx] at h

/-- A buffer of the right length is taken as it is. -/
theorem fitBuffer_eq (n : Nat) (b : List Byte) (h : b.length = n) : fitBuffer n b = b := by
  subst h; simp [fitBuffer]

/-- A transmit the adapter accepts. -/
theorem txPacket_wrote (s : State) (buf : List Byte) (n : Nat) (rest : List TxAnswer)
    (h : s.txAnswers = .wrote n :: rest) (hn : n ≤ Config.leadOut + s.cfg.p) :
    s.txPacket buf = (.wrote n, ({ s with txAnswers := rest }).record (.tx buf (.wrote n))) := by
  simp [txPacket_spec, State.nextTx, h, typedTx, Nat.min_eq_left hn]

/-- A receive the adapter answers with a buffer. -/
theorem rxPacket_data (s : State) (b : List Byte) (rest : List RxAnswer) (h : s.rxAnswers = .data b :: rest)
    (hb : b.length = s.cfg.inLead.val + s.cfg.p) :
    s.rxPacket = (.data b, ({ s with rxAnswers := rest }).record (.rx (.data b))) := by
  simp [rxPacket_spec, State.nextRx, h, typedRx, fitBuffer_eq _ _ hb]

/-! ### The end of a request -/

/-- Everything `respond` does: one response, LAST_STATUS and LAST_CAUSE, the buffers within their sizes, nothing else. -/
theorem respond_answered (s : State) (st ca : Byte) (res : List Byte) :
    Answered s (s.respond st ca res) (st :: ca :: res) ∧ StoresKept s (s.respond st ca res) ∧
      NoTraffic s (s.respond st ca res) ∧ (s.respond st ca res).mboxStep = s.mboxStep ∧
      (s.respond st ca res).txbuf.length ≤ txbufMax ∧ (s.respond st ca res).rxbuf.length ≤ rxbufMax s.cfg := by
  refine ⟨⟨rfl, rfl, rfl, rfl⟩, ⟨⟨rfl, rfl, rfl, rfl⟩, rfl, rfl⟩, ⟨rfl, rfl, rfl⟩, rfl, ?_, ?_⟩
  · simp only [State.respond_txbuf, List.length_take]; exact Nat.min_le_left _ _
  · simp only [State.respond_rxbuf, List.length_take]; exact Nat.min_le_left _ _

/-- Everything a success does. -/
theorem succeed_answered (s : State) (res : List Byte) :
    Answered s (s.succeed res) (0 :: 0 :: res) ∧ StoresKept s (s.succeed res) ∧ NoTraffic s (s.succeed res) ∧
      (s.succeed res).mboxStep = s.mboxStep :=
  ⟨⟨rfl, rfl, rfl, rfl⟩, ⟨⟨rfl, rfl, rfl, rfl⟩, rfl, rfl⟩, ⟨rfl, rfl, rfl⟩, rfl⟩

/-- Everything an exception does (R184). -/
theorem raise_answered (s : State) (c : Cause) (res : List Byte) :
    Answered s (s.raise c res) (Status.code (Cause.status c) :: Cause.code c :: res) ∧
      StoresKept s (s.raise c res) ∧ NoTraffic s (s.raise c res) ∧ (s.raise c res).mboxStep = .idle :=
  ⟨⟨rfl, rfl, rfl, rfl⟩, ⟨⟨rfl, rfl, rfl, rfl⟩, rfl, rfl⟩, ⟨rfl, rfl, rfl⟩, rfl⟩

/-- The code of a cause is a pair of R182's table, and it is no success. -/
theorem cause_codes (c : Cause) :
    (Status.code (Cause.status c), Cause.code c) ∈ legalCodes ∧ Status.code (Cause.status c) ≠ 0 ∧ Cause.code c ≠ 0 ∧
      Status.code (Cause.status c) ≠ 4 := by
  cases c <;> decide

/-- The two ways an operation ends. -/
theorem finishWith_cases {α : Type} (r : Run α) (f : α → List Byte) :
    (∃ a, r.1 = .ok a ∧ State.finishWith r f = r.2.succeed (f a)) ∨
      ∃ c, r.1 = .error c ∧ State.finishWith r f = r.2.raise c [] := by
  obtain ⟨a | c, s⟩ := r
  · exact .inr ⟨a, rfl, rfl⟩
  · exact .inl ⟨c, rfl, rfl⟩

theorem finish_eq (r : Run (List Byte)) : State.finish r = State.finishWith r id := by
  obtain ⟨a | c, s⟩ := r <;> rfl

/-- An operation that ran to a result. -/
theorem finishWith_ok {α : Type} {r : Run α} {a : α} {u : State} (f : α → List Byte) (h : r = (.ok a, u)) :
    State.finishWith r f = u.succeed (f a) := by
  subst h; rfl

/-- An operation that raised a cause. -/
theorem finishWith_error {α : Type} {r : Run α} {c : Cause} {u : State} (f : α → List Byte) (h : r = (.error c, u)) :
    State.finishWith r f = u.raise c [] := by
  subst h; rfl

/-! ### The request port -/

/-- Taking a request removes it from the port and changes nothing else. -/
theorem takeRequest_spec (s s' : State) (r : List Byte) (h : s.takeRequest = some (r, s')) :
    s.requests = r :: s'.requests ∧ s' = { s with requests := s'.requests } := by
  unfold State.takeRequest at h
  split at h
  · cases h
  · simp only [Option.some.injEq, Prod.mk.injEq] at h
    obtain ⟨rfl, rfl⟩ := h
    exact ⟨by assumption, rfl⟩

end Sys2Proof.Machine
end

