-- ==== Sys2Proof/Laws/Framer.lean ====
section
/-! SUPPORT. The framer's internal functions (40_framer.md): what each can do, and what it does when the adapter accepts every
packet and carries a reply. -/

namespace Sys2Proof.Machine

/-! ### Every outcome is transport alone -/

theorem sendPackets_traffic (bs : List (List Byte)) (total : Nat) (s : State) :
    Traffic s (sendPackets bs total s).2 := by
  induction bs generalizing total s with
  | nil => exact Traffic.refl s
  | cons b bs ih =>
    have h := txPacket_traffic s b
    rcases ht : s.txPacket b with ⟨a, s'⟩
    rw [ht] at h
    cases a with
    | failed => simpa [sendPackets, ht] using h
    | wrote n => simpa [sendPackets, ht] using h.trans (ih (total + n) s')

theorem writeMessage_traffic (m : Message) (s : State) : Traffic s (writeMessage m s).2 := by
  unfold writeMessage
  split
  · exact Traffic.refl s
  · exact (Traffic.txbuf s _).trans (sendPackets_traffic _ _ _)

theorem rxOrFail_traffic (s : State) : Traffic s (rxOrFail s).2 := by
  have h := rxPacket_traffic s
  rcases hr : s.rxPacket with ⟨a, s'⟩
  rw [hr] at h
  cases a with
  | data b => simpa [rxOrFail, hr] using h
  | timeout => simp only [rxOrFail, hr]; exact h.trans (Traffic.record s' .close)
  | error => simp only [rxOrFail, hr]; exact h.trans (Traffic.record s' .close)

theorem readContinuation_traffic (n : Nat) (s : State) : Traffic s (readContinuation n s).2 := by
  induction n generalizing s with
  | zero => exact Traffic.refl s
  | succ n ih =>
    have h := rxOrFail_traffic s
    rcases hr : rxOrFail s with ⟨c | b, s'⟩
    · rw [hr] at h; simpa [readContinuation, hr] using h
    · rw [hr] at h
      simpa [readContinuation, hr] using h.trans ((Traffic.rxbuf s' _).trans (ih _))

theorem readMessage_traffic (s : State) : Traffic s (readMessage s).2 := by
  have h := rxOrFail_traffic s
  rcases hr : rxOrFail s with ⟨c | b, s1⟩
  · rw [hr] at h; simpa [readMessage, hr] using h
  · rw [hr] at h
    have h2 : Traffic s { s1 with rxbuf := streamBytes s1.cfg b } := h.trans (Traffic.rxbuf s1 _)
    simp only [readMessage, hr]
    split
    · exact h2
    · have h3 := readContinuation_traffic
        (packetCount s1.cfg (Config.hdr + u16 (streamBytes s1.cfg b) 2) - 1) { s1 with rxbuf := streamBytes s1.cfg b }
      split <;> rename_i heq <;> rw [heq] at h3 <;> exact h2.trans h3

theorem transact_traffic (m : Message) (s : State) : Traffic s (transact m s).2 := by
  unfold transact
  split
  · have hw := writeMessage_traffic m s
    split
    · rename_i heq; rw [heq] at hw; exact hw
    · rename_i s1 heq
      rw [heq] at hw
      have hr := readMessage_traffic s1
      split
      · rename_i heq2; rw [heq2] at hr; exact hw.trans hr
      · rename_i heq2
        rw [heq2] at hr
        split <;> exact hw.trans hr
  · exact Traffic.refl s

/-! ### The outbound side when every packet is accepted -/

/-- The packets offered, each accepted: the counts are summed, and the trace gains one event a packet. -/
theorem sendPackets_accepted (bs : List (List Byte)) (counts : List Nat) (total : Nat) (s : State) (rest : List TxAnswer)
    (hl : counts.length = bs.length) (ht : ∀ n ∈ counts, n ≤ Config.leadOut + s.cfg.p)
    (ha : s.txAnswers = counts.map TxAnswer.wrote ++ rest) :
    sendPackets bs total s = (.ok (total + counts.sum),
      { s with
        txAnswers := rest
        trace := s.trace ++ List.zipWith (fun buf n => Event.tx buf (.wrote n)) bs counts }) := by
  induction bs generalizing counts total s with
  | nil =>
    have : counts = [] := List.eq_nil_of_length_eq_zero hl
    subst this
    simp only [List.map_nil, List.nil_append] at ha
    simp [sendPackets, ← ha]
  | cons b bs ih =>
    cases counts with
    | nil => simp at hl
    | cons n counts =>
      simp only [List.map_cons, List.cons_append] at ha
      have hn : n ≤ Config.leadOut + s.cfg.p := ht n (by simp)
      rw [sendPackets, txPacket_wrote s b n _ ha hn]
      refine Eq.trans (ih counts (total + n) _ ?_ ?_ rfl) ?_
      · simpa using hl
      · exact fun k hk => ht k (by simp [hk])
      · simp [State.record, List.sum_cons, Nat.add_assoc]

@[simp] theorem packets_length (cfg : Params) (stream : List Byte) :
    (packets cfg stream).length = packetCount cfg stream.length := by
  simp [packets]

@[simp] theorem envEncode_length (cfg : Params) (m : Message) : (envEncode cfg m).length = 4 + m.payload.length := by
  simp only [envEncode, List.length_cons, List.length_append, le16_length]; omega

/-- `Write` of a legal message whose packets are all accepted (R83). -/
theorem writeMessage_accepted (m : Message) (s : State) (counts : List Nat) (rest : List TxAnswer)
    (hp : m.payload.length ≤ Config.maxPayload) (hc : Accepts s.cfg (envEncode s.cfg m) counts)
    (ha : s.txAnswers = counts.map TxAnswer.wrote ++ rest) :
    writeMessage m s = (.ok counts.sum,
      { s with
        txbuf := envEncode s.cfg m
        txAnswers := rest
        trace := s.trace ++ sentEvents s.cfg (envEncode s.cfg m) counts }) := by
  rw [writeMessage, if_neg (Nat.not_lt.mpr hp)]
  have := sendPackets_accepted (packets s.cfg (envEncode s.cfg m)) counts 0 { s with txbuf := envEncode s.cfg m } rest
    (by rw [packets_length]; exact hc.1) hc.2 ha
  simpa [sentEvents] using this

/-! ### The inbound side when every packet is a buffer -/

/-- The stream bytes of a buffer of the right length are `P` bytes. -/
theorem streamBytes_length (cfg : Params) (b : List Byte) (h : b.length = cfg.inLead.val + cfg.p) :
    (streamBytes cfg b).length = cfg.p := by
  simp [streamBytes, h]

/-- A receive the adapter answers with a buffer of the right length. -/
theorem rxOrFail_data (s : State) (b : List Byte) (rest : List RxAnswer) (h : s.rxAnswers = .data b :: rest)
    (hb : b.length = s.cfg.inLead.val + s.cfg.p) :
    rxOrFail s = (.ok b, { s with rxAnswers := rest, trace := s.trace ++ [.rx (.data b)] }) := by
  simp [rxOrFail, rxPacket_data s b rest h hb, State.record]

/-- Continuation packets that are all buffers: each is joined to RXBUF. -/
theorem readContinuation_data (bufs : List (List Byte)) (s : State) (rest : List RxAnswer)
    (ha : s.rxAnswers = bufs.map RxAnswer.data ++ rest) (hb : ∀ b ∈ bufs, b.length = s.cfg.inLead.val + s.cfg.p) :
    readContinuation bufs.length s = (.ok (),
      { s with
        rxbuf := s.rxbuf ++ bufs.flatMap (streamBytes s.cfg)
        rxAnswers := rest
        trace := s.trace ++ receivedEvents bufs }) := by
  induction bufs generalizing s with
  | nil =>
    simp only [List.map_nil, List.nil_append] at ha
    simp [readContinuation, receivedEvents, ← ha]
  | cons b bufs ih =>
    simp only [List.map_cons, List.cons_append] at ha
    rw [List.length_cons, readContinuation, rxOrFail_data s b _ ha (hb b (by simp))]
    refine Eq.trans (ih _ rfl ?_) ?_
    · exact fun k hk => hb k (by simp [hk])
    · simp [receivedEvents, List.append_assoc]

/-- With `P ≥ 4`, a stream of at least four bytes takes at least one packet. -/
theorem packetCount_pos (cfg : Params) (n : Nat) (hp : 4 ≤ cfg.p) (hn : 4 ≤ n) : 1 ≤ packetCount cfg n := by
  rw [packetCount, Nat.le_div_iff_mul_le (by omega)]; omega

/-- The packets of a stream hold it whole. -/
theorem le_packetCount_mul (cfg : Params) (n : Nat) (hp : 1 ≤ cfg.p) : n ≤ packetCount cfg n * cfg.p := by
  have h := Nat.div_add_mod (n + cfg.p - 1) cfg.p
  have h2 := Nat.mod_lt (n + cfg.p - 1) hp
  rw [packetCount, Nat.mul_comm]
  omega

/-- `Read` when the adapter's buffers carry a reply (R84): the reply's parts, and exactly the buffers read. -/
theorem readMessage_carries (s : State) (bufs : List (List Byte)) (flags seq : Byte) (payload : List Byte)
    (rest : List RxAnswer) (hp : 4 ≤ s.cfg.p) (hc : Carries s.cfg bufs flags seq payload)
    (ha : s.rxAnswers = bufs.map RxAnswer.data ++ rest) :
    readMessage s = (.ok ⟨flags, decodeFlags s.cfg.flagLayout flags, seq, payload.length, payload⟩,
      { s with
        rxbuf := bufs.flatMap (streamBytes s.cfg)
        rxAnswers := rest
        trace := s.trace ++ receivedEvents bufs }) := by
  obtain ⟨hlen, hcount, htyped, hbytes⟩ := hc
  have hpos := packetCount_pos s.cfg (4 + payload.length) hp (by omega)
  cases bufs with
  | nil => simp only [List.length_nil] at hcount; omega
  | cons b bufs =>
    simp only [List.map_cons, List.cons_append] at ha
    have hb : b.length = s.cfg.inLead.val + s.cfg.p := htyped b (by simp)
    have hsb := streamBytes_length s.cfg b hb
    simp only [List.flatMap_cons] at hbytes ⊢
    have hhead : (streamBytes s.cfg b).take 4 = flags :: seq :: le16 payload.length := by
      have h1 := congrArg (List.take 4) hbytes
      rw [List.take_take, Nat.min_eq_left (by omega), List.take_append_of_le_length (by omega)] at h1
      simpa [le16_eq] using h1
    have hu : u16 (streamBytes s.cfg b) 2 = payload.length := by
      have h2 : ((streamBytes s.cfg b).drop 2).take 2 = le16 payload.length := by
        have h1 := congrArg (List.drop 2) hhead
        rw [List.drop_take] at h1
        simpa using h1
      rw [u16, h2, leNat_le16, Nat.mod_eq_of_lt (by omega)]
    rw [readMessage, rxOrFail_data s b _ ha hb]
    simp only [hu, Config.hdr, Config.maxPayload]
    rw [if_neg (by omega)]
    have hk : packetCount s.cfg (4 + payload.length) - 1 = bufs.length := by
      simp only [List.length_cons] at hcount; omega
    have hcont := readContinuation_data bufs
      { s with
        rxbuf := streamBytes s.cfg b
        rxAnswers := bufs.map RxAnswer.data ++ rest
        trace := s.trace ++ [Event.rx (.data b)] } rest rfl (fun k hk => htyped k (by simp [hk]))
    rw [hk, hcont]
    have hstream : streamBytes s.cfg b ++ bufs.flatMap (streamBytes s.cfg)
        = (flags :: seq :: (le16 payload.length ++ payload))
          ++ (streamBytes s.cfg b ++ bufs.flatMap (streamBytes s.cfg)).drop (4 + payload.length) := by
      rw [← hbytes, List.take_append_drop]
    have hreply : replyOf s.cfg (streamBytes s.cfg b ++ bufs.flatMap (streamBytes s.cfg))
        = ⟨flags, decodeFlags s.cfg.flagLayout flags, seq, payload.length, payload⟩ := by
      rw [hstream]
      generalize (streamBytes s.cfg b ++ bufs.flatMap (streamBytes s.cfg)).drop (4 + payload.length) = tail
      have hu2 : u16 (flags :: seq :: (le16 payload.length ++ payload) ++ tail) 2 = payload.length := by
        have := u16_header flags seq payload.length (payload ++ tail) (by omega)
        simpa [List.append_assoc] using this
      simp only [replyOf, hu2, Config.hdr]
      simp [le16_eq]
    simp only [hreply]
    simp [receivedEvents, List.append_assoc]

/-- The checks of an acceptable reply pass (R85). -/
theorem checkReply_acceptable (cfg : Params) (flags seq : Byte) (payload : List Byte)
    (h : Acceptable cfg flags payload) :
    checkReply ⟨flags, decodeFlags cfg.flagLayout flags, seq, payload.length, payload⟩ = none := by
  obtain ⟨h1, h2⟩ := h
  simp only [checkReply, h1, List.length_eq_zero_iff, if_neg h2]
  rfl

/-- `Transact` of a message that goes through (R85). -/
theorem transact_goesThrough (m : Message) (s : State) (x : Exchange) (txRest : List TxAnswer) (rxRest : List RxAnswer)
    (hp : 4 ≤ s.cfg.p) (hreply : m.flags.reply = true) (hl : m.payload.length ≤ Config.maxPayload)
    (hx : Exchange.goesThrough s.cfg (envEncode s.cfg m) x)
    (ht : s.txAnswers = x.counts.map TxAnswer.wrote ++ txRest) (hr : s.rxAnswers = x.bufs.map RxAnswer.data ++ rxRest) :
    transact m s = (.ok x.payload,
      { s with
        txbuf := envEncode s.cfg m
        rxbuf := x.bufs.flatMap (streamBytes s.cfg)
        txAnswers := txRest
        rxAnswers := rxRest
        trace := s.trace ++ Exchange.events s.cfg (envEncode s.cfg m) x }) := by
  rw [transact, if_pos hreply, writeMessage_accepted m s x.counts txRest hl hx.1 ht]
  have hread := readMessage_carries
    { s with
      txbuf := envEncode s.cfg m
      txAnswers := txRest
      trace := s.trace ++ sentEvents s.cfg (envEncode s.cfg m) x.counts }
    x.bufs x.flags x.seq x.payload rxRest hp hx.2.1 hr
  simp only [hread]
  rw [checkReply_acceptable s.cfg x.flags x.seq x.payload hx.2.2]
  simp [Exchange.events, List.append_assoc]

/-! ### When the adapter fails -/

/-- The packets offered until the adapter fails: the later ones are not offered (R83). -/
theorem sendPackets_failed (bs : List (List Byte)) (counts : List Nat) (total : Nat) (s : State) (rest : List TxAnswer)
    (hl : counts.length < bs.length) (ht : ∀ n ∈ counts, n ≤ Config.leadOut + s.cfg.p)
    (ha : s.txAnswers = counts.map TxAnswer.wrote ++ .failed :: rest) :
    sendPackets bs total s = (.error .teWrite,
      { s with
        txAnswers := rest
        trace := s.trace ++ List.zipWith (fun buf n => Event.tx buf (.wrote n)) bs counts
          ++ [.tx (bs.getD counts.length []) .failed] }) := by
  induction bs generalizing counts total s with
  | nil => simp at hl
  | cons b bs ih =>
    cases counts with
    | nil =>
      simp only [List.map_nil, List.nil_append] at ha
      simp [sendPackets, State.txPacket, State.nextTx, ha, typedTx, State.record]
    | cons n counts =>
      simp only [List.map_cons, List.cons_append] at ha
      rw [sendPackets, txPacket_wrote s b n _ ha (ht n (by simp))]
      refine Eq.trans (ih counts (total + n) _ ?_ ?_ rfl) ?_
      · simpa using hl
      · exact fun k hk => ht k (by simp [hk])
      · simp [State.record]

/-- A failed receive closes the adapter (R86). -/
theorem rxOrFail_failed (s : State) (a : RxAnswer) (c : Cause) (rest : List RxAnswer) (h : s.rxAnswers = a :: rest)
    (ha : ReceiveFailure a c) :
    rxOrFail s = (.error c, { s with rxAnswers := rest, trace := s.trace ++ [.rx a, .close] }) := by
  cases ha <;>
    simp [rxOrFail, State.rxPacket, State.nextRx, h, typedRx, State.record, State.closeAdapter]

/-- Continuation packets until a receive fails. -/
theorem readContinuation_failed (bufs : List (List Byte)) (n : Nat) (s : State) (a : RxAnswer) (c : Cause)
    (rest : List RxAnswer) (ha : ReceiveFailure a c) (hn : bufs.length < n)
    (hr : s.rxAnswers = bufs.map RxAnswer.data ++ a :: rest)
    (hb : ∀ b ∈ bufs, b.length = s.cfg.inLead.val + s.cfg.p) :
    ∃ b, readContinuation n s = (.error c,
      { s with
        rxbuf := b
        rxAnswers := rest
        trace := s.trace ++ receivedEvents bufs ++ [.rx a, .close] }) := by
  induction bufs generalizing s n with
  | nil =>
    cases n with
    | zero => simp at hn
    | succ n =>
      simp only [List.map_nil, List.nil_append] at hr
      exact ⟨s.rxbuf, by simp [readContinuation, rxOrFail_failed s a c rest hr ha, receivedEvents]⟩
  | cons b bufs ih =>
    cases n with
    | zero => simp at hn
    | succ n =>
      simp only [List.map_cons, List.cons_append] at hr
      rw [readContinuation, rxOrFail_data s b _ hr (hb b (by simp))]
      obtain ⟨bb, h⟩ := ih n
        { s with
          rxAnswers := bufs.map RxAnswer.data ++ a :: rest
          trace := s.trace ++ [.rx (.data b)]
          rxbuf := s.rxbuf ++ streamBytes s.cfg b }
        (by simpa using hn) rfl (fun k hk => hb k (by simp [hk]))
      refine ⟨bb, ?_⟩
      simp only
      rw [h]
      simp [receivedEvents]

theorem packets_getD (cfg : Params) (stream : List Byte) (k : Nat) (h : k < packetCount cfg stream.length) :
    (packets cfg stream).getD k [] = packet cfg stream k := by
  simp [packets, h]

/-- `Write` until the adapter fails (R83). -/
theorem writeMessage_failed (m : Message) (s : State) (counts : List Nat) (rest : List TxAnswer)
    (hp : m.payload.length ≤ Config.maxPayload) (hl : counts.length < packetCount s.cfg (envEncode s.cfg m).length)
    (ht : ∀ n ∈ counts, n ≤ Config.leadOut + s.cfg.p) (ha : s.txAnswers = counts.map TxAnswer.wrote ++ .failed :: rest) :
    writeMessage m s = (.error .teWrite,
      { s with
        txbuf := envEncode s.cfg m
        txAnswers := rest
        trace := s.trace ++ (sentEvents s.cfg (envEncode s.cfg m) counts
          ++ [.tx (packet s.cfg (envEncode s.cfg m) counts.length) .failed]) }) := by
  rw [writeMessage, if_neg (Nat.not_lt.mpr hp)]
  have := sendPackets_failed (packets s.cfg (envEncode s.cfg m)) counts 0 { s with txbuf := envEncode s.cfg m } rest
    (by rw [packets_length]; exact hl) ht ha
  rw [this, packets_getD _ _ _ hl]
  simp [sentEvents]

/-- The length field of the first buffer of a reply is in its stream bytes. -/
theorem u16_streamBytes (cfg : Params) (b : List Byte) (tail : List Byte) (hp : 4 ≤ cfg.p)
    (hb : b.length = cfg.inLead.val + cfg.p) : u16 (streamBytes cfg b ++ tail) 2 = u16 (streamBytes cfg b) 2 := by
  have hl := streamBytes_length cfg b hb
  rw [u16, u16, List.drop_append_of_le_length (by omega), List.take_append_of_le_length (by simp; omega)]

/-- `Read` when a receive fails, first or continuation (R84, R86). -/
theorem readMessage_failed (s : State) (bufs : List (List Byte)) (a : RxAnswer) (c : Cause) (rest : List RxAnswer)
    (hp : 4 ≤ s.cfg.p) (ha : ReceiveFailure a c) (hb : ∀ b ∈ bufs, b.length = s.cfg.inLead.val + s.cfg.p)
    (hn : bufs = [] ∨ (u16 (bufs.flatMap (streamBytes s.cfg)) 2 ≤ 512 ∧
      bufs.length < packetCount s.cfg (4 + u16 (bufs.flatMap (streamBytes s.cfg)) 2)))
    (hr : s.rxAnswers = bufs.map RxAnswer.data ++ a :: rest) :
    ∃ b, readMessage s = (.error c,
      { s with
        rxbuf := b
        rxAnswers := rest
        trace := s.trace ++ (receivedEvents bufs ++ [.rx a, .close]) }) := by
  cases bufs with
  | nil =>
    simp only [List.map_nil, List.nil_append] at hr
    exact ⟨s.rxbuf, by simp [readMessage, rxOrFail_failed s a c rest hr ha, receivedEvents]⟩
  | cons b bufs =>
    simp only [List.map_cons, List.cons_append] at hr
    have hb0 := hb b (by simp)
    rcases hn with h | ⟨h512, hcount⟩
    · simp at h
    · rw [List.flatMap_cons, u16_streamBytes s.cfg b _ hp hb0] at h512 hcount
      obtain ⟨bb, h⟩ := readContinuation_failed bufs
        (packetCount s.cfg (Config.hdr + u16 (streamBytes s.cfg b) 2) - 1)
        { s with
          rxbuf := streamBytes s.cfg b
          rxAnswers := bufs.map RxAnswer.data ++ a :: rest
          trace := s.trace ++ [Event.rx (.data b)] }
        a c rest ha (by simp only [List.length_cons] at hcount; simp only [Config.hdr]; omega) rfl
        (fun k hk => hb k (by simp [hk]))
      refine ⟨bb, ?_⟩
      rw [readMessage, rxOrFail_data s b _ hr hb0]
      simp only
      rw [if_neg (Nat.not_lt.mpr h512), h]
      simp [receivedEvents]

/-- `Read` of a reply whose length field is above 512 (R84). -/
theorem readMessage_lengthRefused (s : State) (buf : List Byte) (rest : List RxAnswer)
    (hb : buf.length = s.cfg.inLead.val + s.cfg.p) (hl : 512 < u16 (streamBytes s.cfg buf) 2)
    (hr : s.rxAnswers = .data buf :: rest) :
    readMessage s = (.error .peLength,
      { s with
        rxbuf := streamBytes s.cfg buf
        rxAnswers := rest
        trace := s.trace ++ [.rx (.data buf)] }) := by
  rw [readMessage, rxOrFail_data s buf _ hr hb]
  simp only
  rw [if_pos hl]

/-- The state of a transaction whose packets the adapter accepted, before its `Read`. -/
def written (s : State) (stream : List Byte) (counts : List Nat) (txRest : List TxAnswer) : State :=
  { s with
    txbuf := stream
    txAnswers := txRest
    trace := s.trace ++ sentEvents s.cfg stream counts }

/-- `Transact` once the adapter accepted the message: its `Read`, then the checks of the reply (R85). -/
theorem transact_written (m : Message) (s : State) (counts : List Nat) (txRest : List TxAnswer)
    (hreply : m.flags.reply = true) (hl : m.payload.length ≤ Config.maxPayload)
    (hw : Accepts s.cfg (envEncode s.cfg m) counts) (ht : s.txAnswers = counts.map TxAnswer.wrote ++ txRest) :
    transact m s =
      match readMessage (written s (envEncode s.cfg m) counts txRest) with
      | (.error c, s2) => (.error c, s2)
      | (.ok r, s2) =>
        match checkReply r with
        | some c => (.error c, s2)
        | none => (.ok r.payload, s2) := by
  rw [transact, if_pos hreply, writeMessage_accepted m s counts txRest hl hw ht]
  rfl

/-- `Transact` of a message within the length limit, however its attempt ends (R85): the result, the adapter's answers taken,
the events issued, and nothing else but the two buffers. -/
theorem transact_attempt (m : Message) (s : State) (r : Except Cause (List Byte)) (tx txRest : List TxAnswer)
    (rx rxRest : List RxAnswer) (events : List Event) (hp : 4 ≤ s.cfg.p) (hreply : m.flags.reply = true)
    (hl : m.payload.length ≤ Config.maxPayload) (h : Attempt s.cfg (envEncode s.cfg m) r tx rx events)
    (ht : s.txAnswers = tx ++ txRest) (hr : s.rxAnswers = rx ++ rxRest) :
    ∃ b, transact m s = (r,
      { s with
        txbuf := envEncode s.cfg m
        rxbuf := b
        txAnswers := txRest
        rxAnswers := rxRest
        trace := s.trace ++ events }) := by
  cases h with
  | through x hx => exact ⟨_, transact_goesThrough m s x txRest rxRest hp hreply hl hx ht hr⟩
  | writeFails counts hc hty =>
    refine ⟨s.rxbuf, ?_⟩
    rw [List.nil_append] at hr
    rw [transact, if_pos hreply, writeMessage_failed m s counts txRest hl hc hty (by simpa using ht), ← hr]
  | receiveFails counts bufs a c hw ha hb hn =>
    obtain ⟨b, hread⟩ := readMessage_failed (written s (envEncode s.cfg m) counts txRest) bufs a c rxRest hp ha hb hn
      (by simpa [written] using hr)
    refine ⟨b, ?_⟩
    rw [transact_written m s counts txRest hreply hl hw ht, hread]
    simp only [written, List.append_assoc]
  | lengthRefused counts buf hw hb hlen =>
    refine ⟨streamBytes s.cfg buf, ?_⟩
    rw [transact_written m s counts txRest hreply hl hw ht,
      readMessage_lengthRefused (written s (envEncode s.cfg m) counts txRest) buf rxRest hb hlen hr]
    simp only [written, List.append_assoc]
  | nack x hw hcar he =>
    refine ⟨x.bufs.flatMap (streamBytes s.cfg), ?_⟩
    rw [transact_written m s x.counts txRest hreply hl hw ht,
      readMessage_carries (written s (envEncode s.cfg m) x.counts txRest) x.bufs x.flags x.seq x.payload rxRest hp hcar hr]
    simp [written, checkReply, he, Exchange.events]
  | empty x hw hcar he hd hpl =>
    refine ⟨x.bufs.flatMap (streamBytes s.cfg), ?_⟩
    rw [transact_written m s x.counts txRest hreply hl hw ht,
      readMessage_carries (written s (envEncode s.cfg m) x.counts txRest) x.bufs x.flags x.seq x.payload rxRest hp hcar hr]
    simp [written, checkReply, he, hd, hpl, Exchange.events]

end Sys2Proof.Machine
end

