-- ==== Sys2Proof/Laws/Codec.lean ====
section
/-! SUPPORT. The codec's generic transactions (42_codec.md rule R114): what each can do, and what it does when the transaction
goes through. -/

namespace Sys2Proof.Machine

theorem envEncode_getMsg (cfg : Params) (r : Reg) : envEncode cfg (getMsg cfg r) = getStream cfg r := by
  simp [envEncode, getMsg, getStream, le16_eq]

theorem envEncode_setMsg (cfg : Params) (r : Reg) (raw : List Byte) :
    envEncode cfg (setMsg cfg r raw) = setStream cfg r raw := by
  have h : 1 + (1 + raw.length) = 2 + raw.length := by omega
  simp [envEncode, setMsg, setStream, le16_eq, Nat.add_comm, h]

/-! ### Every outcome is transport alone -/

theorem regGet_traffic (r : Reg) (s : State) : Traffic s (regGet r s).2 := by
  have h := transact_traffic (getMsg s.cfg r) s
  unfold regGet
  split
  · rename_i heq; rw [heq] at h; exact h
  · rename_i heq
    rw [heq] at h
    split
    · exact h
    · split <;> exact h

theorem regSet_traffic (r : Reg) (raw : List Byte) (s : State) : Traffic s (regSet r raw s).2 := by
  have h := transact_traffic (setMsg s.cfg r raw) s
  unfold regSet
  split <;> rename_i heq <;> rw [heq] at h <;> exact h

theorem packSet_traffic (r : Reg) (v : List Byte) (s : State) : Traffic s (packSet r v s).2 := regSet_traffic _ _ _

theorem checkedSet_traffic (r : Reg) (v : List Byte) (s : State) : Traffic s (checkedSet r v s).2 := by
  unfold checkedSet
  split
  · exact packSet_traffic r v s
  · exact Traffic.refl s

/-! ### The field check (R115) -/

theorem checkedSet_fits (r : Reg) (v : List Byte) (s : State)
    (h : layoutFits (layoutOf s.cfg r) (fieldValues v) = true) : checkedSet r v s = packSet r v s := by
  rw [checkedSet, if_pos h]

theorem checkedSet_unfit (r : Reg) (v : List Byte) (s : State)
    (h : layoutFits (layoutOf s.cfg r) (fieldValues v) = false) : checkedSet r v s = (.error .pvFieldRange, s) := by
  rw [checkedSet, h]; rfl

/-- A field written above every bit set so far adds its value at its place (R115 `Pack`). -/
theorem fieldWrite_above (f : BitField) (v n : Nat) (hv : v < 2 ^ fieldWidth f) (hn : n < 2 ^ fieldOffset f) :
    fieldWrite f v n = n + v * 2 ^ fieldOffset f := by
  have h : n / 2 ^ (fieldOffset f + fieldWidth f) = 0 :=
    Nat.div_eq_of_lt (lt_of_lt_of_le hn (Nat.pow_le_pow_right (by omega) (by omega)))
  rw [fieldWrite, Nat.mod_eq_of_lt hn, Nat.mod_eq_of_lt hv, h, Nat.zero_mul, Nat.add_zero]

/-! ### When the transaction goes through -/

/-- The state a transaction that went through leaves, before the response. -/
def exchanged (s : State) (stream : List Byte) (x : Exchange) (txRest : List TxAnswer) (rxRest : List RxAnswer) : State :=
  { s with
    txbuf := stream
    rxbuf := x.bufs.flatMap (streamBytes s.cfg)
    txAnswers := txRest
    rxAnswers := rxRest
    trace := s.trace ++ Exchange.events s.cfg stream x }

variable {s : State} {x : Exchange} {txRest : List TxAnswer} {rxRest : List RxAnswer}

theorem regGet_goesThrough (r : Reg) (hp : 4 ≤ s.cfg.p) (hx : Exchange.goesThrough s.cfg (getStream s.cfg r) x)
    (ht : s.txAnswers = x.counts.map TxAnswer.wrote ++ txRest) (hr : s.rxAnswers = x.bufs.map RxAnswer.data ++ rxRest)
    (hw : ∀ w, (layoutOf s.cfg r).width = some w → w ≤ x.payload.length) :
    regGet r s = (.ok (match (layoutOf s.cfg r).width with
      | some w => x.payload.take w
      | none => x.payload), exchanged s (getStream s.cfg r) x txRest rxRest) := by
  rw [← envEncode_getMsg] at hx ⊢
  rw [regGet, transact_goesThrough (getMsg s.cfg r) s x txRest rxRest hp rfl (by simp [getMsg, Config.maxPayload]) hx ht hr]
  simp only
  cases hl : (layoutOf s.cfg r).width with
  | none => rfl
  | some w => simp [Nat.not_lt.mpr (hw w hl), exchanged]

theorem regSet_goesThrough (r : Reg) (raw : List Byte) (hp : 4 ≤ s.cfg.p) (hl : 2 + raw.length ≤ 512)
    (hx : Exchange.goesThrough s.cfg (setStream s.cfg r raw) x)
    (ht : s.txAnswers = x.counts.map TxAnswer.wrote ++ txRest) (hr : s.rxAnswers = x.bufs.map RxAnswer.data ++ rxRest) :
    regSet r raw s = (.ok [], exchanged s (setStream s.cfg r raw) x txRest rxRest) := by
  rw [← envEncode_setMsg] at hx ⊢
  rw [regSet, transact_goesThrough (setMsg s.cfg r raw) s x txRest rxRest hp rfl
    (by simp only [setMsg, List.length_append, le16_length, Config.maxPayload]; omega) hx ht hr]
  rfl

/-- The end of a transaction that went through (R184: the response, and nothing else but the events). -/
theorem exchanged_succeed (stream res : List Byte) :
    Transacted s ((exchanged s stream x txRest rxRest).succeed res) stream x (0 :: 0 :: res) :=
  ⟨⟨rfl, rfl, rfl, rfl⟩, StoresKept.refl s, rfl, rfl⟩

/-! ### However the transaction ends -/

/-- The state a transaction leaves, before the response. -/
def attempted (s : State) (stream b : List Byte) (txRest : List TxAnswer) (rxRest : List RxAnswer) (events : List Event) :
    State :=
  { s with
    txbuf := stream
    rxbuf := b
    txAnswers := txRest
    rxAnswers := rxRest
    trace := s.trace ++ events }

variable {r : Except Cause (List Byte)} {tx : List TxAnswer} {rx : List RxAnswer} {events : List Event} {c : Cause}

/-- A GET whose transaction fails. -/
theorem regGet_fails (reg : Reg) (hp : 4 ≤ s.cfg.p) (h : Attempt s.cfg (getStream s.cfg reg) (.error c) tx rx events)
    (ht : s.txAnswers = tx ++ txRest) (hr : s.rxAnswers = rx ++ rxRest) :
    ∃ b, regGet reg s = (.error c, attempted s (getStream s.cfg reg) b txRest rxRest events) := by
  rw [← envEncode_getMsg] at h ⊢
  obtain ⟨b, hb⟩ := transact_attempt _ s _ tx txRest rx rxRest events hp rfl (by simp [getMsg, Config.maxPayload]) h ht hr
  exact ⟨b, by rw [regGet, hb]; rfl⟩

/-- A SET, however its transaction ends: its result is empty where it goes through. -/
theorem regSet_attempt (reg : Reg) (raw : List Byte) (hp : 4 ≤ s.cfg.p) (hl : 2 + raw.length ≤ 512)
    (h : Attempt s.cfg (setStream s.cfg reg raw) r tx rx events) (ht : s.txAnswers = tx ++ txRest)
    (hr : s.rxAnswers = rx ++ rxRest) :
    ∃ b, regSet reg raw s = (r.map fun _ => [], attempted s (setStream s.cfg reg raw) b txRest rxRest events) := by
  rw [← envEncode_setMsg] at h ⊢
  obtain ⟨b, hb⟩ := transact_attempt _ s _ tx txRest rx rxRest events hp rfl
    (by simp only [setMsg, List.length_append, le16_length, Config.maxPayload]; omega) h ht hr
  refine ⟨b, ?_⟩
  rw [regSet, hb]
  cases r <;> rfl

/-- The end of a transaction that failed. -/
theorem attempted_raise (stream b : List Byte) (c : Cause) :
    EndedIdle s ((attempted s stream b txRest rxRest events).raise c []) (failureCodes c) events txRest rxRest :=
  ⟨⟨rfl, rfl, rfl, rfl⟩, StoresKept.refl s, rfl, rfl, rfl, rfl⟩

end Sys2Proof.Machine
end

