-- ==== Sys2Proof/Laws/Decode.lean ====
section
/-! SUPPORT. The readers of the operand formats (30_encoding.md rules R61 to R73) on the bytes the encoder writes, and the op
values no format has (R77). -/

namespace Sys2Proof

/-- A bit vector of whole bytes comes back from its little-endian bytes. -/
theorem ofNat_leNat_leBytes (n w : Nat) (h : w = 8 * n) (v : BitVec w) :
    BitVec.ofNat w (leNat (leBytes n v.toNat)) = v := by
  subst h
  apply BitVec.eq_of_toNat_eq
  rw [leNat_leBytes, BitVec.toNat_ofNat]
  have := v.isLt
  rw [show (256 : Nat) = 2 ^ 8 by rfl, ← Nat.pow_mul, Nat.mod_eq_of_lt this, Nat.mod_eq_of_lt this]

theorem readMsg_bytes (k : Envelope → Instr) (m : Envelope) (h : m.wellFormed = true) : readMsg k m.bytes = .ok (k m) := by
  simp only [Envelope.wellFormed, decide_eq_true_eq] at h
  have : u16 [BitVec.ofNat 8 m.payload.length, BitVec.ofNat 8 (m.payload.length / 256)] 0 = m.payload.length := by
    simp [u16, leNat]; omega
  simp [Envelope.bytes, le16_eq, readMsg, this]

/-- An op value with no format decodes to nothing, whatever follows it. -/
theorem decode_formatOf_none (op : Byte) (bs : List Byte) (h : formatOf op = none) :
    decode (op :: bs) = .error .opcode := by
  unfold formatOf at h
  split at h <;> first | (cases h; done) | skip
  simp only [decode]

end Sys2Proof
end

