-- ==== Sys2Proof/Laws/Mailbox.lean ====
section
/-! SUPPORT. The steps of LUT_UPLOAD (43_mailbox.md): what each can do to the state. -/

namespace Sys2Proof.Machine

/-- From `s` to `t` nothing happened but transport and a move of MBOX_STEP. -/
structure UploadTraffic (s t : State) : Prop where
  cfg : t.cfg = s.cfg
  requests : t.requests = s.requests
  responses : t.responses = s.responses
  stores : StoresKept s t
  trace : ∃ es, t.trace = s.trace ++ es

theorem Traffic.upload {s t : State} (h : Traffic s t) : UploadTraffic s t :=
  ⟨h.cfg, h.requests, h.responses, h.stores, h.trace⟩

theorem UploadTraffic.refl (s : State) : UploadTraffic s s := (Traffic.refl s).upload

theorem UploadTraffic.trans {s t u : State} (h : UploadTraffic s t) (k : UploadTraffic t u) : UploadTraffic s u := by
  obtain ⟨es, he⟩ := h.trace
  obtain ⟨fs, hf⟩ := k.trace
  exact ⟨k.cfg.trans h.cfg, k.requests.trans h.requests, k.responses.trans h.responses, h.stores.trans k.stores,
    es ++ fs, by rw [hf, he, List.append_assoc]⟩

/-- A move of MBOX_STEP. -/
theorem UploadTraffic.move (s : State) (pos : MboxStep) : UploadTraffic s { s with mboxStep := pos } :=
  ⟨rfl, rfl, rfl, StoresKept.refl s, [], by simp⟩

/-- A step of an upload whose transaction is transport alone. -/
theorem uploadStep_traffic (pos : MboxStep) (i : Nat) (run : State → Run (List Byte)) (u : Upload)
    (h : ∀ s, Traffic s (run s).2) : UploadTraffic u.st (uploadStep pos i run u).st := by
  unfold uploadStep
  split
  · exact UploadTraffic.refl _
  · have hr := h { u.st with mboxStep := pos }
    split <;> rename_i heq <;> rw [heq] at hr <;> exact (UploadTraffic.move u.st pos).trans hr.upload

/-- The closing step. -/
theorem uploadClose_traffic (u : Upload) : UploadTraffic u.st (uploadClose u).st := by
  have hr := packSet_traffic .mboxMode [u.st.cfg.named.mboxDisable] { u.st with mboxStep := .close }
  unfold uploadClose closeMailbox
  split <;> rename_i heq <;> rw [heq] at hr <;>
    exact ((UploadTraffic.move u.st .close).trans hr.upload).trans (UploadTraffic.move _ _)

/-- The closing step leaves MBOX_STEP idle and the first failure as it was. -/
theorem uploadClose_idle (u : Upload) : (uploadClose u).st.mboxStep = .idle ∧ (uploadClose u).first = u.first := by
  unfold uploadClose
  split <;> exact ⟨rfl, rfl⟩

/-- The four steps are transport alone, but for MBOX_STEP, which ends idle. -/
theorem uploadSteps_traffic (s : State) :
    UploadTraffic s (uploadSteps s).st ∧ (uploadSteps s).st.mboxStep = .idle := by
  refine ⟨?_, (uploadClose_idle _).1⟩
  have h1 := uploadStep_traffic .open 0 openMailbox (startUpload s) fun t => packSet_traffic _ _ t
  have h2 := uploadStep_traffic .offset 1 zeroOffset
    (uploadStep .open 0 openMailbox (startUpload s)) fun t => packSet_traffic _ _ t
  have h3 := uploadStep_traffic .data 2 sendLut
    (uploadStep .offset 1 zeroOffset
      (uploadStep .open 0 openMailbox (startUpload s))) fun t => transact_traffic _ t
  exact ((h1.trans h2).trans h3).trans (uploadClose_traffic _)

/-- A step of an upload either was skipped, or set its issued bit and, as it succeeded, its success bit. -/
theorem uploadStep_cases (pos : MboxStep) (i : Nat) (run : State → Run (List Byte)) (u : Upload) :
    (u.first.isSome = true ∧ uploadStep pos i run u = u) ∨
      (u.first = none ∧ (uploadStep pos i run u).mask = u.mask ||| maskBit i ||| maskBit (4 + i) ∧
        (uploadStep pos i run u).first = none) ∨
      (u.first = none ∧ (uploadStep pos i run u).mask = u.mask ||| maskBit i ∧
        (uploadStep pos i run u).first.isSome = true) := by
  unfold uploadStep
  split
  · rename_i h; exact .inl ⟨by simp [h], rfl⟩
  · rename_i h
    split
    · exact .inr (.inl ⟨h, rfl, rfl⟩)
    · exact .inr (.inr ⟨h, rfl, rfl⟩)

/-- The closing step always sets its issued bit, and its success bit as it succeeded. -/
theorem uploadClose_cases (u : Upload) :
    (uploadClose u).mask = u.mask ||| maskBit 3 ||| maskBit 7 ∨ (uploadClose u).mask = u.mask ||| maskBit 3 := by
  unfold uploadClose
  split
  · exact .inl rfl
  · exact .inr rfl

/-! ### The steps by what their transaction gives -/

/-- A step that was issued and succeeded. -/
theorem uploadStep_ok {pos : MboxStep} {i : Nat} {run : State → Run (List Byte)} {mask : Byte} {st u : State}
    {res : List Byte} (h : run { st with mboxStep := pos } = (.ok res, u)) :
    uploadStep pos i run ⟨mask, none, st⟩ = ⟨mask ||| maskBit i ||| maskBit (4 + i), none, u⟩ := by
  simp only [uploadStep, h]

/-- A step that was issued and failed. -/
theorem uploadStep_error {pos : MboxStep} {i : Nat} {run : State → Run (List Byte)} {mask : Byte} {st u : State}
    {c : Cause} (h : run { st with mboxStep := pos } = (.error c, u)) :
    uploadStep pos i run ⟨mask, none, st⟩ = ⟨mask ||| maskBit i, some c, u⟩ := by
  simp only [uploadStep, h]

/-- A step after a failed one is not issued. -/
theorem uploadStep_skipped (pos : MboxStep) (i : Nat) (run : State → Run (List Byte)) (mask : Byte) (c : Cause)
    (st : State) : uploadStep pos i run ⟨mask, some c, st⟩ = ⟨mask, some c, st⟩ := rfl

/-- The closing step, by its transaction. -/
theorem uploadClose_eq {mask : Byte} {first : Option Cause} {st u : State} {r : Except Cause (List Byte)}
    (h : closeMailbox { st with mboxStep := .close } = (r, u)) :
    uploadClose ⟨mask, first, st⟩
      = ⟨closing r (mask ||| maskBit 3 ||| maskBit 7) (mask ||| maskBit 3), first, { u with mboxStep := .idle }⟩ := by
  cases r <;> simp only [uploadClose, h, closing]

/-- The steps' parameter bytes are those the claims name. -/
theorem openMailbox_eq (s : State) : openMailbox s = regSet .mboxMode (openBytes s.cfg) s := rfl

theorem zeroOffset_eq (s : State) : zeroOffset s = regSet .mboxOffset (offsetBytes s.cfg) s := rfl

theorem closeMailbox_eq (s : State) : closeMailbox s = regSet .mboxMode (closeBytes s.cfg) s := rfl

theorem lutBytes_eq (s : State) : lutBytes s = lutPayload s := rfl

end Sys2Proof.Machine
end

