-- ==== Sys2Proof/Laws/Step.lean ====
section
/-! SUPPORT. What every operation does at its end, and the ways a step can go. -/

namespace Sys2Proof.Machine

/-- From `s` to `t` one request ended: the parameters and the requests to come are as they were, one response was given, its
codes are legal and are those of LAST_STATUS and LAST_CAUSE, the trace only grew, and the buffers are within their sizes. -/
structure Ended (s t : State) : Prop where
  cfg : t.cfg = s.cfg
  requests : t.requests = s.requests
  response : ∃ result, t.responses = s.responses ++ [t.lastStatus :: t.lastCause :: result]
  codes : (t.lastStatus, t.lastCause) ∈ legalCodes
  trace : ∃ es, t.trace = s.trace ++ es
  txbuf : t.txbuf.length ≤ txbufMax
  rxbuf : t.rxbuf.length ≤ rxbufMax s.cfg

theorem Ended.respond {s u : State} (st ca : Byte) (result : List Byte) (hc : (st, ca) ∈ legalCodes) (hcfg : u.cfg = s.cfg)
    (hrq : u.requests = s.requests) (hrs : u.responses = s.responses) (htr : ∃ es, u.trace = s.trace ++ es) :
    Ended s (u.respond st ca result) := by
  have h := respond_answered u st ca result
  exact ⟨hcfg, hrq, ⟨result, congrArg (· ++ _) hrs⟩, hc, htr, h.2.2.2.2.1, hcfg ▸ h.2.2.2.2.2⟩

theorem Ended.succeed {s u : State} (result : List Byte) (hcfg : u.cfg = s.cfg) (hrq : u.requests = s.requests)
    (hrs : u.responses = s.responses) (htr : ∃ es, u.trace = s.trace ++ es) : Ended s (u.succeed result) :=
  Ended.respond _ _ _ (by decide) hcfg hrq hrs htr

theorem Ended.raise {s u : State} (c : Cause) (result : List Byte) (hcfg : u.cfg = s.cfg) (hrq : u.requests = s.requests)
    (hrs : u.responses = s.responses) (htr : ∃ es, u.trace = s.trace ++ es) : Ended s (u.raise c result) :=
  Ended.respond (u := { u with mboxStep := .idle }) _ _ _ (cause_codes c).1 hcfg hrq hrs htr

/-- An operation of one transaction ended: besides, the stores are as they were, MBOX_STEP stays idle or becomes so by a failure, and
a failure answers with its two codes alone. -/
structure TransportEnded (s t : State) : Prop where
  ended : Ended s t
  stores : StoresKept s t
  failedIdle : t.lastStatus ≠ 0 → t.mboxStep = .idle
  mboxStep : s.mboxStep = .idle → t.mboxStep = .idle
  failed : t.lastStatus ≠ 0 → t.responses = s.responses ++ [[t.lastStatus, t.lastCause]]

theorem TransportEnded.finishWith {α : Type} {s : State} (r : Run α) (f : α → List Byte) (h : Traffic s r.2) :
    TransportEnded s (State.finishWith r f) := by
  obtain ⟨a | a, u⟩ := r
  · exact ⟨Ended.raise a [] h.cfg h.requests h.responses h.trace, h.stores, fun _ => rfl, fun _ => rfl,
      fun _ => congrArg (· ++ _) h.responses⟩
  · exact ⟨Ended.succeed _ h.cfg h.requests h.responses h.trace, h.stores, fun h0 => absurd rfl h0,
      fun hm => h.mboxStep.trans hm, fun h0 => absurd rfl h0⟩

theorem TransportEnded.finish {s : State} (r : Run (List Byte)) (h : Traffic s r.2) : TransportEnded s (State.finish r) := by
  rw [finish_eq]; exact TransportEnded.finishWith r id h

/-- The end of an upload (R172). -/
theorem finishUpload_ended (s : State) :
    Ended s (finishUpload (uploadSteps s)) ∧ StoresKept s (finishUpload (uploadSteps s)) ∧
      (finishUpload (uploadSteps s)).mboxStep = .idle := by
  obtain ⟨h, hi⟩ := uploadSteps_traffic s
  generalize uploadSteps s = u at h hi ⊢
  unfold finishUpload
  split
  · exact ⟨Ended.succeed _ h.cfg h.requests h.responses h.trace, h.stores, hi⟩
  · exact ⟨Ended.raise _ _ h.cfg h.requests h.responses h.trace, h.stores, rfl⟩

/-- The ways a step can go: it waits, it runs the instruction its request decodes to, or it refuses the request. -/
theorem step_cases (s t : State) (h : step s = .next t) :
    (s.requests = [] ∧ t = s) ∨
      ∃ r rest, s.requests = r :: rest ∧
        ((∃ i, decode r = .ok i ∧ exec i { s with requests := rest } = .next t) ∨
          ∃ e, decode r = .error e ∧ t = ({ s with requests := rest }).refuseRequest e) := by
  unfold step State.takeRequest at h
  cases hr : s.requests with
  | nil =>
    rw [hr] at h
    simp only at h
    injection h with h
    exact .inl ⟨rfl, h.symm⟩
  | cons r rest =>
    rw [hr] at h
    refine .inr ⟨r, rest, rfl, ?_⟩
    simp only at h
    cases hd : decode r with
    | ok i => rw [hd] at h; exact .inl ⟨i, rfl, h⟩
    | error e =>
      rw [hd] at h
      simp only at h
      injection h with h
      exact .inr ⟨e, rfl, h.symm⟩

end Sys2Proof.Machine
end

