-- ==== Sys2Proof/Tests/Slice0.lean ====
section
/-! SUPPORT. The model's own tests. Every expected value is from spec/: the words are written out from 30_encoding.md, the
responses and packets from the vectors of 95_test_vectors.md (its names stand in the comments). A theorem named `witness_<Name>`
shows that the hypotheses of `Obligations.<Name>` can be met together. -/

namespace Sys2Proof.Tests

-- One declaration at a time: the kernel evaluations of many tests at once would need too many threads.
set_option Elab.async false

open Sys2Proof.Machine

/-! ### Helpers -/

/-- Bytes filled with zeros to one packet of 64. -/
def pad (bs : List Byte) : List Byte := bs ++ List.replicate (64 - bs.length) 0

/-- The outbound packet that carries a stream of at most 64 bytes under the default parameters. -/
def packetOf (bs : List Byte) : List Byte := 0 :: pad bs

/-- Reset, with an adapter that accepts ten packets whole and then answers these receives. -/
def device (rx : List RxAnswer) : State :=
  { State.reset with txAnswers := List.replicate 10 (.wrote 65), rxAnswers := rx }

/-- The receive answer of a buffer that starts with these bytes. -/
def data (bs : List Byte) : RxAnswer := .data (pad bs)

/-- ACK: the write-type acknowledgement with no payload. -/
def ack : RxAnswer := data [0x02, 0x00, 0x00, 0x00]

/-- A read-type reply. -/
def reply (payload : List Byte) : RxAnswer := data (0x03 :: 0x00 :: (le16 payload.length ++ payload))

/-- The last response of an outcome. -/
def response : Host.Outcome State Fault Refusal → List Byte
  | .next t => t.responses.getLast?.getD []
  | .fault _ => []
  | .refused _ => []

/-- The buffers an outcome offered to the adapter. -/
def sent : Host.Outcome State Fault Refusal → List (List Byte)
  | .next t => txBuffers t.trace
  | .fault _ => []
  | .refused _ => []

/-- Each event of a trace by its kind: 0 a transmit, 1 a receive, 2 a close. -/
def kinds : Host.Outcome State Fault Refusal → List Nat
  | .next t => t.trace.map fun e =>
    match e with
    | .tx _ _ => 0
    | .rx _ => 1
    | .close => 2
  | .fault _ => []
  | .refused _ => []

/-- The outcome is a next state. -/
def isNext : Host.Outcome State Fault Refusal → Bool
  | .next _ => true
  | .fault _ => false
  | .refused _ => false

/-- A store of the three patterns of program P1, with its timing. -/
def threePatterns (s : State) : State :=
  { s with
    seqEntry := [(0, 0x42800), (1, 0x01804), (2, 0x04808)]
    seqCount := 3
    seqExposure := 8000
    seqPeriod := 8333 }

/-- A VX store of the two entries of program P8. -/
def twoTriples (s : State) : State :=
  { s with vxEntry := [(0, ⟨0x47164, 1000, 2000⟩), (1, ⟨0x0180C, 9000, 9000⟩)], vxCount := 2 }

/-! ### Well-formedness -/

/-- R62: the length field of an envelope has 16 bits. -/
theorem test_wellformed_refuses_long_payload :
    (Instr.msgWrite ⟨0, 0, List.replicate 65536 0⟩).wellFormed = false ∧
      (Instr.msgTransact ⟨0, 0, List.replicate 65536 0⟩).wellFormed = false := by
  simp only [Instr.wellFormed, Envelope.wellFormed, List.length_replicate]
  decide

theorem test_wellformed_accepts_longest_payload : (Instr.msgWrite ⟨0, 0, List.replicate 65535 0⟩).wellFormed = true := by
  simp only [Instr.wellFormed, Envelope.wellFormed, List.length_replicate]
  decide

/-! ### Decoding: requests written out byte by byte -/

/-- R62, R75: the framer operations. -/
theorem test_decode_framer :
    decode [0x01, 0x02, 0x07, 0x02, 0x00, 0xAA, 0xBB] = .ok (.msgWrite ⟨0x02, 0x07, [0xAA, 0xBB]⟩) ∧
    decode [0x02] = .ok .msgRead ∧
    decode [0x03, 0x03, 0x09, 0x02, 0x00, 0x1B, 0x1A] = .ok (.msgTransact ⟨0x03, 0x09, [0x1B, 0x1A]⟩) := by
  decide +kernel

/-- R75: `GET.k` is `0x40 + k`, one byte. -/
theorem test_decode_get :
    decode [0x40] = .ok .getPowerMode ∧
    decode [0x41] = .ok .getLedEnable ∧
    decode [0x42] = .ok .getLedCurrent ∧
    decode [0x43] = .ok .getInputSource ∧
    decode [0x44] = .ok .getTestPattern ∧
    decode [0x45] = .ok .getDisplayMode ∧
    decode [0x46] = .ok .getGamma ∧
    decode [0x47] = .ok .getPatTriggerMode ∧
    decode [0x48] = .ok .getPatDataSource ∧
    decode [0x49] = .ok .getPatSeqStatus ∧
    decode [0x4A] = .ok .getPatPeriod ∧
    decode [0x4B] = .ok .getPatConfig ∧
    decode [0x4C] = .ok .getMboxMode ∧
    decode [0x4D] = .ok .getMboxOffset ∧
    decode [0x4F] = .ok .getValidate ∧
    decode [0x50] = .ok .getVersion ∧
    decode [0x51] = .ok .getFirmwareTag ∧
    decode [0x52] = .ok .getHwStatus ∧
    decode [0x53] = .ok .getSysStatus ∧
    decode [0x54] = .ok .getMainStatus := by
  decide +kernel

/-- R63 to R69, R75: `SET.k` is `0x80 + k`, then the operands in order. -/
theorem test_decode_set :
    decode [0x80, 0x5A] = .ok (.setPowerMode 0x5A) ∧
    decode [0x81, 0x01, 0x02, 0x03, 0x04] = .ok (.setLedEnable 1 2 3 4) ∧
    decode [0x82, 0x28, 0x5A, 0xFF] = .ok (.setLedCurrent 40 90 255) ∧
    decode [0x83, 0x06, 0x05] = .ok (.setInputSource 6 5) ∧
    decode [0x84, 0x0F] = .ok (.setTestPattern 15) ∧
    decode [0x85, 0x01] = .ok (.setDisplayMode 1) ∧
    decode [0x86, 0x03, 0x01] = .ok (.setGamma 3 1) ∧
    decode [0x87, 0x04] = .ok (.setPatTriggerMode 4) ∧
    decode [0x88, 0x03] = .ok (.setPatDataSource 3) ∧
    decode [0x89, 0x02] = .ok (.setPatSeqStatus 2) ∧
    decode [0x8A, 0x41, 0x22, 0x00, 0x00, 0x28, 0x23, 0x00, 0x00] = .ok (.setPatPeriod 8769 9000) ∧
    decode [0x8B, 0x02, 0x01, 0x03, 0x04] = .ok (.setPatConfig 2 1 3 4) ∧
    decode [0x8C, 0x02] = .ok (.setMboxMode 2) ∧
    decode [0x8D, 0x07] = .ok (.setMboxOffset 7) ∧
    decode [0x8F] = .ok .setValidate := by
  decide +kernel

/-- R68, R70 to R73, R75: the stores, the mailbox and the packer. -/
theorem test_decode_stores :
    decode [0xC0] = .ok .seqClear ∧
    decode [0xC1, 0x03, 0x18, 0x08, 0x07, 0x01, 0x00, 0x01, 0x00] = .ok (.seqAdd ⟨3, 24, 8, 7, 1, 0, 1, 0⟩) ∧
    decode [0xC2, 0x40, 0x1F, 0x00, 0x00, 0x8D, 0x20, 0x00, 0x00] = .ok (.seqSetTiming 8000 8333) ∧
    decode [0xC3, 0x34, 0x12] = .ok (.seqRead 0x1234) ∧
    decode [0xC4] = .ok .seqStatus ∧
    decode [0xC5] = .ok .lutUpload ∧
    decode [0xC8] = .ok .vxClear ∧
    decode [0xC9, 0x00, 0x19, 0x01, 0x07, 0x00, 0x01, 0x00, 0x01, 0xE8, 0x03, 0x00, 0x00, 0xD0, 0x07, 0x00, 0x00] = .ok (.vxAdd ⟨0, 25, 1, 7, 0, 1, 0, 1⟩ 1000 2000) ∧
    decode [0xCA, 0x1F, 0x07] = .ok (.vxRead 1823) ∧
    decode [0xCB] = .ok .vxStatus ∧
    decode [0xD0, 0x01, 0x02, 0x03, 0x04, 0x05, 0x06, 0x07, 0x08] = .ok (.patPack ⟨1, 2, 3, 4, 5, 6, 7, 8⟩) ∧
    decode [0xD1, 0x56, 0x34, 0x12] = .ok (.patUnpack 0x123456) := by
  decide +kernel

/-- D-2 to D-8: undefined op values, whatever follows them. -/
theorem test_decode_undefined :
    ([[0x00], [0x04], [0x3F], [0x4E], [0x55], [0x7F], [0x8E, 0x00], [0x90], [0xBF], [0xC6], [0xC7], [0xCC], [0xCF], [0xD2], [0xFF],
      [0xFF, 0x00, 0x00]] : List (List Byte)).all
        (fun r => decode r == .error .opcode) = true := by
  decide +kernel

/-- D-1, D-9 to D-13, D-15: wrong lengths. -/
theorem test_decode_length :
    ([[], [0x40, 0x00], [0x80], [0x8A, 0x28, 0x23, 0x00, 0x00, 0x28, 0x23, 0x00], [0x01, 0x02, 0x00],
      [0x01, 0x02, 0x00, 0x05, 0x00, 0x01, 0x02], [0xC1, 0x00, 0x00, 0x08, 0x02, 0x00, 0x00, 0x00], [0xC5, 0x00]] :
        List (List Byte)).all
        (fun r => decode r == .error .length) = true := by
  decide +kernel

/-- The encoder writes the bytes of 30_encoding.md. -/
theorem test_encode :
    encode (.seqRead 0x1234) = [0xC3, 0x34, 0x12] ∧
    encode (.setPatPeriod 8769 9000) = [0x8A, 0x41, 0x22, 0x00, 0x00, 0x28, 0x23, 0x00, 0x00] ∧
    encode (.msgWrite ⟨0x02, 0x07, [0xAA, 0xBB]⟩) = [0x01, 0x02, 0x07, 0x02, 0x00, 0xAA, 0xBB] ∧
    encode (.patUnpack 0x123456) = [0xD1, 0x56, 0x34, 0x12] := by
  decide +kernel

/-- The op values of the opcode table. -/
def tableOps : List Nat :=
  [0x01, 0x02, 0x03] ++ (List.range 14).map (0x40 + ·) ++ [0x4F, 0x50, 0x51, 0x52, 0x53, 0x54]
    ++ (List.range 14).map (0x80 + ·) ++ [0x8F, 0xC0, 0xC1, 0xC2, 0xC3, 0xC4, 0xC5, 0xC8, 0xC9, 0xCA, 0xCB, 0xD0, 0xD1]

/-- Every row of the opcode table, its operands zeros, decodes to an instruction that encodes to its op; there are 50. -/
theorem test_decodeTableWord :
    tableOps.length = 50 ∧
      tableOps.all (fun w => (decodeTableWord 8 w).any fun i => (encode i).head? == some (BitVec.ofNat 8 w)) = true := by
  decide +kernel

/-- Every row of the opcode table runs as the first instruction after reset. -/
theorem test_withFetchWord_runs : tableOps.all (fun w => isNext (step (State.reset.withFetchWord 8 w))) = true := by
  decide +kernel

/-! ### The message framer -/

/-- 2.2: the flag bytes of the table, under both layouts. -/
theorem test_flag_bytes :
    ([(⟨.write, false, false, 0⟩, 0x00, 0x00), (⟨.read, false, false, 0⟩, 0x01, 0x80), (⟨.write, true, false, 0⟩, 0x02, 0x40),
      (⟨.read, true, false, 0⟩, 0x03, 0xC0), (⟨.write, true, true, 0⟩, 0x06, 0x60), (⟨.read, true, true, 0⟩, 0x07, 0xE0),
      (⟨.write, false, false, 1⟩, 0x20, 0x01), (⟨.write, false, false, 7⟩, 0xE0, 0x07),
      (⟨.read, true, true, 7⟩, 0xE7, 0xE7)] : List (FlagFields × Byte × Byte)).all
      (fun (f, l, m) => encodeFlags .literal f == l && encodeFlags .msb0 f == m) = true := by
  decide +kernel

/-- R83's example: one packet, the adapter's count in four bytes. -/
theorem test_msgWrite :
    response (exec (.msgWrite ⟨0x02, 0, [0x01, 0x0B, 0xD7, 0xA5, 0x00]⟩) (device [])) = [0, 0, 0x41, 0, 0, 0] ∧
    sent (exec (.msgWrite ⟨0x02, 0, [0x01, 0x0B, 0xD7, 0xA5, 0x00]⟩) (device []))
      = [packetOf [0x02, 0x00, 0x05, 0x00, 0x01, 0x0B, 0xD7, 0xA5, 0x00]] := by
  decide +kernel

/-- F-W7: the second packet fails, and nothing follows it. -/
theorem test_msgWrite_failure :
    response (exec (.msgWrite ⟨0x02, 0, List.replicate 100 0x11⟩)
      { State.reset with txAnswers := [.wrote 65, .failed] }) = [1, 1] ∧
    kinds (exec (.msgWrite ⟨0x02, 0, List.replicate 100 0x11⟩)
      { State.reset with txAnswers := [.wrote 65, .failed] }) = [0, 0] := by
  decide +kernel

/-- F-R3: the raw flag byte and the sequence number are returned unchecked. -/
theorem test_msgRead : response (exec .msgRead (device [data [0x1B, 0x05, 0x00, 0x00]])) = [0, 0, 0x1B, 0x05, 0, 0] := by
  decide +kernel

/-- F-R10: a continuation packet times out, and the adapter is closed. -/
theorem test_msgRead_timeout :
    response (exec .msgRead (device [data [0x03, 0x00, 0x3D, 0x00], .timeout])) = [3, 1] ∧
    kinds (exec .msgRead (device [data [0x03, 0x00, 0x3D, 0x00], .timeout])) = [1, 1, 2] := by
  decide +kernel

/-- F-T14: the loopback of the request itself. -/
theorem test_msgTransact :
    response (exec (.msgTransact ⟨0x03, 0, [0x1B, 0x1A]⟩) (device [data [0x03, 0x00, 0x02, 0x00, 0x1B, 0x1A]]))
      = [0, 0, 2, 0, 0x1B, 0x1A] := by
  decide +kernel

/-- F-T3, F-T5, F-T7: the order of the checks. -/
theorem test_msgTransact_checks :
    response (exec (.msgTransact ⟨0x01, 0, List.replicate 513 0⟩) (device [])) = [5, 2] ∧
    response (exec (.msgTransact ⟨0x03, 0, [0x1B, 0x1A]⟩) (device [data [0x07, 0x00, 0x00, 0x00]])) = [2, 1] ∧
    response (exec (.msgTransact ⟨0x03, 0, [0x1B, 0x1A]⟩) (device [data [0x03, 0x00, 0x00, 0x00]])) = [2, 2] := by
  decide +kernel

/-! ### The register codec -/

/-- C-G2. -/
theorem test_getPowerMode :
    response (exec .getPowerMode (device [reply [0x05, 0xAA, 0xBB]])) = [0x00, 0x00, 0x05] ∧
    sent (exec .getPowerMode (device [reply [0x05, 0xAA, 0xBB]])) = [packetOf [0x03, 0x00, 0x02, 0x00, 0x00, 0x02]] := by
  decide +kernel

/-- C-G7. -/
theorem test_getLedEnable :
    response (exec .getLedEnable (device [reply [0xF7]])) = [0x00, 0x00, 0x01, 0x01, 0x01, 0x00] ∧
    sent (exec .getLedEnable (device [reply [0xF7]])) = [packetOf [0x03, 0x00, 0x02, 0x00, 0x07, 0x1A]] := by
  decide +kernel

/-- E5. -/
theorem test_getLedCurrent :
    response (exec .getLedCurrent (device [reply [0xD7, 0xA5, 0x00]])) = [0x00, 0x00, 0x28, 0x5A, 0xFF] ∧
    sent (exec .getLedCurrent (device [reply [0xD7, 0xA5, 0x00]])) = [packetOf [0x03, 0x00, 0x02, 0x00, 0x01, 0x0B]] := by
  decide +kernel

/-- C-G8. -/
theorem test_getInputSource :
    response (exec .getInputSource (device [reply [0xC8]])) = [0x00, 0x00, 0x00, 0x01] ∧
    sent (exec .getInputSource (device [reply [0xC8]])) = [packetOf [0x03, 0x00, 0x02, 0x00, 0x00, 0x1A]] := by
  decide +kernel

/-- C-G9. -/
theorem test_getTestPattern :
    response (exec .getTestPattern (device [reply [0x17]])) = [0x00, 0x00, 0x07] ∧
    sent (exec .getTestPattern (device [reply [0x17]])) = [packetOf [0x03, 0x00, 0x02, 0x00, 0x03, 0x12]] := by
  decide +kernel

/-- C-G10. -/
theorem test_getDisplayMode :
    response (exec .getDisplayMode (device [reply [0xFE]])) = [0x00, 0x00, 0x00] ∧
    sent (exec .getDisplayMode (device [reply [0xFE]])) = [packetOf [0x03, 0x00, 0x02, 0x00, 0x1B, 0x1A]] := by
  decide +kernel

/-- C-G11. -/
theorem test_getGamma :
    response (exec .getGamma (device [reply [0x85]])) = [0x00, 0x00, 0x01, 0x01] ∧
    sent (exec .getGamma (device [reply [0x85]])) = [packetOf [0x03, 0x00, 0x02, 0x00, 0x0E, 0x1A]] := by
  decide +kernel

/-- R138. -/
theorem test_getPatTriggerMode :
    response (exec .getPatTriggerMode (device [reply [0x04]])) = [0x00, 0x00, 0x04] ∧
    sent (exec .getPatTriggerMode (device [reply [0x04]])) = [packetOf [0x03, 0x00, 0x02, 0x00, 0x23, 0x1A]] := by
  decide +kernel

/-- C-G12. -/
theorem test_getPatDataSource :
    response (exec .getPatDataSource (device [reply [0xFF]])) = [0x00, 0x00, 0x03] ∧
    sent (exec .getPatDataSource (device [reply [0xFF]])) = [packetOf [0x03, 0x00, 0x02, 0x00, 0x22, 0x1A]] := by
  decide +kernel

/-- R144. -/
theorem test_getPatSeqStatus :
    response (exec .getPatSeqStatus (device [reply [0x02]])) = [0x00, 0x00, 0x02] ∧
    sent (exec .getPatSeqStatus (device [reply [0x02]])) = [packetOf [0x03, 0x00, 0x02, 0x00, 0x24, 0x1A]] := by
  decide +kernel

/-- C-G13. -/
theorem test_getPatPeriod :
    response (exec .getPatPeriod (device [reply [0x28, 0x23, 0x00, 0x00, 0x28, 0x23, 0x00, 0x00]])) = [0x00, 0x00, 0x28, 0x23, 0x00, 0x00, 0x28, 0x23, 0x00, 0x00] ∧
    sent (exec .getPatPeriod (device [reply [0x28, 0x23, 0x00, 0x00, 0x28, 0x23, 0x00, 0x00]])) = [packetOf [0x03, 0x00, 0x02, 0x00, 0x29, 0x1A]] := by
  decide +kernel

/-- C-G15. -/
theorem test_getPatConfig :
    response (exec .getPatConfig (device [reply [0xFF, 0xFF, 0xFF, 0xFF]])) = [0x00, 0x00, 0x7F, 0x01, 0xFF, 0x3F] ∧
    sent (exec .getPatConfig (device [reply [0xFF, 0xFF, 0xFF, 0xFF]])) = [packetOf [0x03, 0x00, 0x02, 0x00, 0x31, 0x1A]] := by
  decide +kernel

/-- R153. -/
theorem test_getMboxMode :
    response (exec .getMboxMode (device [reply [0x03]])) = [0x00, 0x00, 0x03] ∧
    sent (exec .getMboxMode (device [reply [0x03]])) = [packetOf [0x03, 0x00, 0x02, 0x00, 0x33, 0x1A]] := by
  decide +kernel

/-- R156. -/
theorem test_getMboxOffset :
    response (exec .getMboxOffset (device [reply [0x01]])) = [0x00, 0x00, 0x01] ∧
    sent (exec .getMboxOffset (device [reply [0x01]])) = [packetOf [0x03, 0x00, 0x02, 0x00, 0x32, 0x1A]] := by
  decide +kernel

/-- E9. -/
theorem test_getValidate :
    response (exec .getValidate (device [reply [0x10]])) = [0x00, 0x00, 0x00, 0x00, 0x00, 0x00, 0x01, 0x00, 0x00, 0x01] ∧
    sent (exec .getValidate (device [reply [0x10]])) = [packetOf [0x03, 0x00, 0x02, 0x00, 0x1A, 0x1A]] := by
  decide +kernel

/-- R162. -/
theorem test_getVersion :
    response (exec .getVersion (device [reply [0x00, 0x01, 0x02, 0x03, 0x04, 0x05, 0x06, 0x07, 0x08, 0x09, 0x0A, 0x0B, 0x0C, 0x0D, 0x0E, 0x0F]])) = [0x00, 0x00, 0x00, 0x01, 0x02, 0x03, 0x04, 0x05, 0x06, 0x07, 0x08, 0x09, 0x0A, 0x0B, 0x0C, 0x0D, 0x0E, 0x0F] ∧
    sent (exec .getVersion (device [reply [0x00, 0x01, 0x02, 0x03, 0x04, 0x05, 0x06, 0x07, 0x08, 0x09, 0x0A, 0x0B, 0x0C, 0x0D, 0x0E, 0x0F]])) = [packetOf [0x03, 0x00, 0x02, 0x00, 0x05, 0x02]] := by
  decide +kernel

/-- R166. -/
theorem test_getHwStatus :
    response (exec .getHwStatus (device [reply [0x01]])) = [0x00, 0x00, 0x01] ∧
    sent (exec .getHwStatus (device [reply [0x01]])) = [packetOf [0x03, 0x00, 0x02, 0x00, 0x0A, 0x1A]] := by
  decide +kernel

/-- R168. -/
theorem test_getSysStatus :
    response (exec .getSysStatus (device [reply [0x01]])) = [0x00, 0x00, 0x01] ∧
    sent (exec .getSysStatus (device [reply [0x01]])) = [packetOf [0x03, 0x00, 0x02, 0x00, 0x0B, 0x1A]] := by
  decide +kernel

/-- R170. -/
theorem test_getMainStatus :
    response (exec .getMainStatus (device [reply [0xA5]])) = [0x00, 0x00, 0xA5] ∧
    sent (exec .getMainStatus (device [reply [0xA5]])) = [packetOf [0x03, 0x00, 0x02, 0x00, 0x0C, 0x1A]] := by
  decide +kernel

/-- C-G18 and C-G17: the tag, and an empty tag. -/
theorem test_getFirmwareTag :
    response (exec .getFirmwareTag (device [reply [0x41, 0x42, 0x43]])) = [0, 0, 3, 0, 0x41, 0x42, 0x43] ∧
    response (exec .getFirmwareTag (device [ack])) = [0, 0, 0, 0] := by
  decide +kernel

/-- C-G4, C-G5, C-G21: a reply too short, and a timeout. -/
theorem test_get_failures :
    response (exec .getPowerMode (device [ack])) = [2, 4] ∧
    response (exec .getLedCurrent (device [reply [0xD7, 0xA5]])) = [2, 4] ∧
    response (exec .getMainStatus (device [.timeout])) = [3, 1] ∧
    kinds (exec .getMainStatus (device [.timeout])) = [0, 1, 2] := by
  decide +kernel

/-- C-S2. -/
theorem test_setPowerMode :
    response (exec (.setPowerMode 0xFF) (device [ack])) = [0, 0] ∧
    sent (exec (.setPowerMode 0xFF) (device [ack])) = [packetOf [0x02, 0x00, 0x03, 0x00, 0x00, 0x02, 0xFF]] := by
  decide +kernel

/-- C-S4. -/
theorem test_setLedEnable :
    response (exec (.setLedEnable 1 0 1 1) (device [ack])) = [0, 0] ∧
    sent (exec (.setLedEnable 1 0 1 1) (device [ack])) = [packetOf [0x02, 0x00, 0x03, 0x00, 0x07, 0x1A, 0x0D]] := by
  decide +kernel

/-- E5. -/
theorem test_setLedCurrent :
    response (exec (.setLedCurrent 40 90 255) (device [ack])) = [0, 0] ∧
    sent (exec (.setLedCurrent 40 90 255) (device [ack])) = [packetOf [0x02, 0x00, 0x05, 0x00, 0x01, 0x0B, 0xD7, 0xA5, 0x00]] := by
  decide +kernel

/-- R125. -/
theorem test_setInputSource :
    response (exec (.setInputSource 7 6) (device [ack])) = [0, 0] ∧
    sent (exec (.setInputSource 7 6) (device [ack])) = [packetOf [0x02, 0x00, 0x03, 0x00, 0x00, 0x1A, 0x37]] := by
  decide +kernel

/-- C-S11. -/
theorem test_setTestPattern :
    response (exec (.setTestPattern 15) (device [ack])) = [0, 0] ∧
    sent (exec (.setTestPattern 15) (device [ack])) = [packetOf [0x02, 0x00, 0x03, 0x00, 0x03, 0x12, 0x0F]] := by
  decide +kernel

/-- C-S13. -/
theorem test_setDisplayMode :
    response (exec (.setDisplayMode 1) (device [ack])) = [0, 0] ∧
    sent (exec (.setDisplayMode 1) (device [ack])) = [packetOf [0x02, 0x00, 0x03, 0x00, 0x1B, 0x1A, 0x01]] := by
  decide +kernel

/-- C-S15. -/
theorem test_setGamma :
    response (exec (.setGamma 1 1) (device [ack])) = [0, 0] ∧
    sent (exec (.setGamma 1 1) (device [ack])) = [packetOf [0x02, 0x00, 0x03, 0x00, 0x0E, 0x1A, 0x81]] := by
  decide +kernel

/-- C-S18. -/
theorem test_setPatTriggerMode :
    response (exec (.setPatTriggerMode 5) (device [ack])) = [0, 0] ∧
    sent (exec (.setPatTriggerMode 5) (device [ack])) = [packetOf [0x02, 0x00, 0x03, 0x00, 0x23, 0x1A, 0x05]] := by
  decide +kernel

/-- C-S19. -/
theorem test_setPatDataSource :
    response (exec (.setPatDataSource 3) (device [ack])) = [0, 0] ∧
    sent (exec (.setPatDataSource 3) (device [ack])) = [packetOf [0x02, 0x00, 0x03, 0x00, 0x22, 0x1A, 0x03]] := by
  decide +kernel

/-- C-S21. -/
theorem test_setPatSeqStatus :
    response (exec (.setPatSeqStatus 3) (device [ack])) = [0, 0] ∧
    sent (exec (.setPatSeqStatus 3) (device [ack])) = [packetOf [0x02, 0x00, 0x03, 0x00, 0x24, 0x1A, 0x03]] := by
  decide +kernel

/-- C-S23. -/
theorem test_setPatPeriod :
    response (exec (.setPatPeriod 8769 9000) (device [ack])) = [0, 0] ∧
    sent (exec (.setPatPeriod 8769 9000) (device [ack])) = [packetOf [0x02, 0x00, 0x0A, 0x00, 0x29, 0x1A, 0x41, 0x22, 0x00, 0x00, 0x28, 0x23, 0x00, 0x00]] := by
  decide +kernel

/-- C-S29. -/
theorem test_setPatConfig :
    response (exec (.setPatConfig 2 1 2 0) (device [ack])) = [0, 0] ∧
    sent (exec (.setPatConfig 2 1 2 0) (device [ack])) = [packetOf [0x02, 0x00, 0x06, 0x00, 0x31, 0x1A, 0x02, 0x01, 0x02, 0x00]] := by
  decide +kernel

/-- C-S32. -/
theorem test_setMboxMode :
    response (exec (.setMboxMode 2) (device [ack])) = [0, 0] ∧
    sent (exec (.setMboxMode 2) (device [ack])) = [packetOf [0x02, 0x00, 0x03, 0x00, 0x33, 0x1A, 0x02]] := by
  decide +kernel

/-- R157. -/
theorem test_setMboxOffset :
    response (exec (.setMboxOffset 7) (device [ack])) = [0, 0] ∧
    sent (exec (.setMboxOffset 7) (device [ack])) = [packetOf [0x02, 0x00, 0x03, 0x00, 0x32, 0x1A, 0x07]] := by
  decide +kernel

/-- C-S35. -/
theorem test_setValidate :
    response (exec .setValidate (device [ack])) = [0, 0] ∧
    sent (exec .setValidate (device [ack])) = [packetOf [0x02, 0x00, 0x02, 0x00, 0x1A, 0x1A]] := by
  decide +kernel

/-- C-S5, C-S10, C-S12, C-S14, C-S17, C-S20, C-S22, C-S31, C-S33: operands that do not fit, with no event. -/
theorem test_set_refusals :
    ([.setLedEnable 1 1 1 2, .setInputSource 8 0, .setTestPattern 16, .setDisplayMode 2, .setGamma 4 0, .setGamma 0 2,
      .setPatDataSource 4, .setPatSeqStatus 4, .setPatConfig 0x80 0 0 0, .setPatConfig 0 2 0 0, .setPatConfig 0 0 0 0x40,
      .setMboxMode 4] : List Instr).all
      (fun i => response (exec i (device [ack])) == [5, 7] && kinds (exec i (device [ack])) == []) = true := by
  decide +kernel

/-- E6, C-S24, C-S25, C-S27: periods refused, with no event. -/
theorem test_setPatPeriod_refusals :
    ([(9000, 9000), (8770, 9000), (9001, 9000), (0, 0), (0, 230)] : List (Word32 × Word32)).all
      (fun (e, p) => response (exec (.setPatPeriod e p) (device [ack])) == [5, 3]
        && kinds (exec (.setPatPeriod e p) (device [ack])) == []) = true := by
  decide +kernel

/-- 2.7, last paragraph: SET.POWER_MODE 0 under MSB0. -/
theorem test_set_msb0 :
    sent (exec (.setPowerMode 0) { device [data [0x40, 0x00, 0x00, 0x00]] with cfg := { defaultParams with flagLayout := .msb0 } })
      = [packetOf [0x40, 0x00, 0x03, 0x00, 0x00, 0x02, 0x00]] := by
  decide +kernel

/-! ### The packer and the stores -/

/-- P-K10, P-K2, P-K5. -/
theorem test_patPack :
    response (exec (.patPack ⟨2, 12, 4, 3, 1, 0, 0, 1⟩) State.reset) = [0, 0, 0x32, 0x34, 0x09] ∧
    response (exec (.patPack ⟨3, 25, 8, 7, 1, 1, 1, 1⟩) State.reset) = [0, 0, 0x67, 0x78, 0x0F] ∧
    response (exec (.patPack ⟨0, 64, 0, 0, 0, 0, 0, 0⟩) State.reset) = [5, 7] := by
  decide +kernel

/-- P-U5, P-U2. -/
theorem test_patUnpack :
    response (exec (.patUnpack 0x093432) State.reset) = [0, 0, 2, 12, 4, 3, 1, 0, 0, 1] ∧
    response (exec (.patUnpack 0xF42800) State.reset) = [0, 0, 0, 0, 8, 2, 0, 0, 1, 0] := by
  decide +kernel

/-- E4: the first entry has its buffer swap set, the next keeps the operand's. -/
theorem test_seqAdd :
    response (exec (.seqAdd ⟨0, 0, 8, 2, 0, 0, 0, 0⟩) State.reset) = [0, 0, 0] ∧
    (match exec (.seqAdd ⟨0, 0, 8, 2, 0, 0, 0, 0⟩) State.reset with
      | .next t => t.seqEntry == [(0, 0x42800)] && (match exec (.seqAdd ⟨0, 1, 8, 1, 0, 0, 0, 0⟩) t with
        | .next u => u.seqEntry == [(0, 0x42800), (1, 0x01804)] && u.seqCount == 2
        | _ => false)
      | _ => false) = true := by
  decide +kernel

/-- S-A1 to S-A6, S-A8, S-A9: the order of the checks. -/
theorem test_seqAdd_refusals :
    response (exec (.seqAdd ⟨4, 25, 0, 8, 2, 0, 0, 0⟩) State.reset) = [5, 7] ∧
    response (exec (.seqAdd ⟨0, 25, 0, 8, 2, 0, 0, 0⟩) State.reset) = [5, 4] ∧
    response (exec (.seqAdd ⟨0, 24, 0, 8, 2, 0, 0, 0⟩) State.reset) = [5, 5] ∧
    response (exec (.seqAdd ⟨0, 24, 8, 8, 2, 0, 0, 0⟩) State.reset) = [5, 6] ∧
    response (exec (.seqAdd ⟨0, 24, 8, 7, 2, 0, 0, 0⟩) State.reset) = [5, 7] ∧
    response (exec (.seqAdd ⟨0, 0, 8, 1, 0, 0, 0, 0⟩) { State.reset with seqCount := 128 }) = [5, 8] ∧
    response (exec (.seqAdd ⟨0, 25, 8, 1, 0, 0, 0, 0⟩) { State.reset with seqCount := 128 }) = [5, 4] := by
  decide +kernel

/-- S-R3, S-R4. -/
theorem test_seqRead :
    response (exec (.seqRead 0) (threePatterns State.reset)) = [0, 0, 0x00, 0x28, 0x04] ∧
    response (exec (.seqRead 3) (threePatterns State.reset)) = [5, 9] := by
  decide +kernel

/-- P1 row 9; S-R7: the timing survives a clear. -/
theorem test_seqStatus :
    response (exec .seqStatus (threePatterns State.reset)) = [0, 0, 3, 0x40, 0x1F, 0, 0, 0x8D, 0x20, 0, 0] ∧
    (match exec .seqClear (threePatterns State.reset) with
      | .next t => response (exec .seqStatus t) == [0, 0, 0, 0x40, 0x1F, 0, 0, 0x8D, 0x20, 0, 0]
      | _ => false) = true := by
  decide +kernel

/-- S-R6: any pair is stored. -/
theorem test_seqSetTiming :
    (match exec (.seqSetTiming 9000 9001) State.reset with
      | .next t => t.seqExposure == 9000 && t.seqPeriod == 9001
      | _ => false) = true := by
  decide +kernel

/-- E3, P8: index 25 is admitted, 26 is not. -/
theorem test_vxAdd :
    response (exec (.vxAdd ⟨0, 3, 8, 1, 0, 0, 0, 0⟩ 9000 9000)
      { State.reset with vxCount := 1, vxEntry := [(0, ⟨0x47164, 1000, 2000⟩)] }) = [0, 0, 1, 0] ∧
    (match exec (.vxAdd ⟨0, 25, 1, 7, 0, 0, 0, 0⟩ 1000 2000) State.reset with
      | .next t => t.vxEntry == [(0, ⟨0x47164, 1000, 2000⟩)]
      | _ => false) = true ∧
    response (exec (.vxAdd ⟨0, 26, 1, 7, 0, 0, 0, 0⟩ 1000 2000) State.reset) = [5, 4] ∧
    response (exec (.vxAdd ⟨0, 0, 8, 1, 0, 0, 0, 0⟩ 1000 2000) { State.reset with vxCount := 1824 }) = [5, 8] := by
  decide +kernel

/-- P8 rows 5 and 6. -/
theorem test_vxRead :
    response (exec (.vxRead 1) (twoTriples State.reset)) = [0, 0, 0x0C, 0x18, 0, 0x28, 0x23, 0, 0, 0x28, 0x23, 0, 0] ∧
    response (exec (.vxRead 2) (twoTriples State.reset)) = [5, 9] := by
  decide +kernel

/-- S-V7, S-V8. -/
theorem test_vxStatus :
    response (exec .vxStatus { State.reset with vxCount := 1824 }) = [0, 0, 0x20, 0x07] ∧
    (match exec .vxClear (twoTriples State.reset) with
      | .next t => response (exec .vxStatus t) == [0, 0, 0, 0]
      | _ => false) = true := by
  decide +kernel

/-! ### The mailbox sequencer -/

/-- M-1: the four packets and the step mask. -/
theorem test_lutUpload :
    response (exec .lutUpload (threePatterns (device [ack, ack, ack, ack]))) = [0, 0, 0xFF] ∧
    sent (exec .lutUpload (threePatterns (device [ack, ack, ack, ack]))) =
      [packetOf [0x02, 0x00, 0x03, 0x00, 0x33, 0x1A, 0x02], packetOf [0x02, 0x00, 0x03, 0x00, 0x32, 0x1A, 0x00],
       packetOf [0x02, 0x00, 0x0B, 0x00, 0x34, 0x1A, 0x00, 0x28, 0x04, 0x04, 0x18, 0x00, 0x08, 0x48, 0x00],
       packetOf [0x02, 0x00, 0x03, 0x00, 0x33, 0x1A, 0x00]] := by
  decide +kernel

/-- M-3, M-4, M-5, M-7, M-9: the masks of failed steps, and the events. -/
theorem test_lutUpload_failures :
    response (exec .lutUpload (threePatterns (device [ack, ack, data [0x06, 0, 0, 0], ack]))) = [2, 1, 0xBF] ∧
    response (exec .lutUpload (threePatterns (device [ack, ack, .timeout, .timeout]))) = [3, 1, 0x3F] ∧
    kinds (exec .lutUpload (threePatterns (device [ack, ack, .timeout, .timeout]))) = [0, 1, 0, 1, 0, 1, 2, 0, 1, 2] ∧
    response (exec .lutUpload (threePatterns (device [ack, .timeout, ack]))) = [3, 1, 0x9B] ∧
    response (exec .lutUpload (threePatterns (device [data [0x06, 0, 0, 0], ack]))) = [2, 1, 0x89] ∧
    response (exec .lutUpload State.reset) = [5, 10] := by
  decide +kernel

/-! ### The textual syntax -/

/-- R78: the lines of the programs of 95_test_vectors.md. -/
theorem test_assemble :
    assemble defaultParams "SET.PAT_PERIOD 8769, 9000" = some [.setPatPeriod 8769 9000] ∧
    assemble defaultParams "VX.ADD idx=25, depth=1, led=7, exp=1000, per=2000" = some [.vxAdd ⟨0, 25, 1, 7, 0, 0, 0, 0⟩ 1000 2000] ∧
    assemble defaultParams "MSG.TRANSACT rw=R, reply=1, data=1B 1A" = some [.msgTransact ⟨0x03, 0, [0x1B, 0x1A]⟩] ∧
    assemble defaultParams "PAT.UNPACK 0x042800" = some [.patUnpack 0x042800] ∧
    assemble defaultParams "GET.LED_CURRENT" = some [.getLedCurrent] ∧ assemble defaultParams "SEQ.ADD idx=1, led=2" = none := by
  decide +kernel

/-! ### The hypotheses of the statements can be met -/

/-- One packet accepted whole, and an acknowledgement. -/
def ackExchange : Exchange := ⟨[65], 0x02, 0x00, [], [pad [0x02, 0x00, 0x00, 0x00]]⟩

/-- One packet accepted whole, and a read-type reply of sixteen bytes. -/
def replyExchange : Exchange :=
  ⟨[65], 0x03, 0x00, List.replicate 16 0x11, [pad (0x03 :: 0x00 :: 0x10 :: 0x00 :: List.replicate 16 0x11)]⟩

/-- One packet accepted whole, and a reply with its error flag set. -/
def nackExchange : Exchange := ⟨[65], 0x06, 0x00, [], [pad [0x06, 0x00, 0x00, 0x00]]⟩

/-- One packet accepted whole, and a read-type reply with no payload. -/
def emptyExchange : Exchange := ⟨[65], 0x03, 0x00, [], [pad [0x03, 0x00, 0x00, 0x00]]⟩

/-- Reset with the adapter's answers of these exchanges. -/
def served (xs : List Exchange) : State :=
  { State.reset with
    txAnswers := xs.flatMap fun x => x.counts.map TxAnswer.wrote
    rxAnswers := xs.flatMap fun x => x.bufs.map RxAnswer.data }

/-- Under the default parameters, every way a transaction of a one-packet stream fails can be met: a write failure, a timeout at the
first packet, another failure at a continuation packet, a length of 513, a NACK, and an empty read-type reply. -/
theorem failures_met (stream : List Byte) (h : packetCount defaultParams stream.length = 1) :
    (∃ es, Attempt defaultParams stream (.error .teWrite) [.failed] [] es) ∧
    (∃ es, Attempt defaultParams stream (.error .toRead) [.wrote 65] [.timeout] es) ∧
    (∃ es, Attempt defaultParams stream (.error .teRead) [.wrote 65] [data [0x03, 0x00, 0x3D, 0x00], .error] es) ∧
    (∃ es, Attempt defaultParams stream (.error .peLength) [.wrote 65] [data [0x03, 0x00, 0x01, 0x02]] es) ∧
    (∃ es, Attempt defaultParams stream (.error .peNack) [.wrote 65] [data [0x06, 0x00, 0x00, 0x00]] es) ∧
    ∃ es, Attempt defaultParams stream (.error .peEmpty) [.wrote 65] [data [0x03, 0x00, 0x00, 0x00]] es := by
  have hw : Accepts defaultParams stream [65] := ⟨by rw [h]; rfl, by decide⟩
  refine ⟨⟨_, .writeFails [] (by rw [h]; decide) (by decide)⟩,
    ⟨_, .receiveFails [65] [] .timeout .toRead hw .timeout (by decide) (.inl rfl)⟩,
    ⟨_, .receiveFails [65] [pad [0x03, 0x00, 0x3D, 0x00]] .error .teRead hw .error (by decide +kernel)
      (.inr (by decide +kernel))⟩,
    ⟨_, .lengthRefused [65] (pad [0x03, 0x00, 0x01, 0x02]) hw (by decide +kernel) (by decide +kernel)⟩,
    ⟨_, .nack nackExchange hw ?_ (by decide +kernel)⟩,
    ⟨_, .empty emptyExchange hw ?_ (by decide +kernel) (by decide +kernel) rfl⟩⟩ <;>
    (unfold Carries; decide +kernel)

/-- Reset with one request at the port. -/
def asked (r : List Byte) : State := { State.reset with requests := [r] }

theorem witness_DecodeOfEncode : (Instr.msgWrite ⟨0x02, 0x07, [0xAA]⟩).wellFormed = true := by decide +kernel

theorem witness_EncodeOfDecode : decode [0x45] = .ok .getDisplayMode := by decide +kernel

theorem witness_StepRunsDecodedRequest : (asked [0x45]).requests = [0x45] :: [] ∧ decode [0x45] = .ok .getDisplayMode := by
  decide +kernel

theorem witness_StepWaitsForRequest : State.reset.requests = [] := rfl

/-- Each range of R77 at its ends, and the defined op values beside them. -/
theorem witness_UndefinedOpRefused :
    (∀ op ∈ ([0x00, 0x04, 0x3F, 0x4E, 0x55, 0x7F, 0x8E, 0x90, 0xBF, 0xC6, 0xC7, 0xCC, 0xCF, 0xD2, 0xFF] : List Byte),
      (asked [op]).requests = [op] :: [] ∧ undefinedOp op) ∧
    ∀ op ∈ ([0x01, 0x03, 0x40, 0x4D, 0x4F, 0x54, 0x80, 0x8D, 0x8F, 0xC0, 0xC5, 0xC8, 0xCB, 0xD0, 0xD1] : List Byte),
      ¬ undefinedOp op := by
  constructor <;> intro op h <;> simp only [List.mem_cons, List.not_mem_nil, or_false] at h
  · rcases h with rfl | rfl | rfl | rfl | rfl | rfl | rfl | rfl | rfl | rfl | rfl | rfl | rfl | rfl | rfl <;>
      exact ⟨rfl, by simp [undefinedOp]⟩
  · rcases h with rfl | rfl | rfl | rfl | rfl | rfl | rfl | rfl | rfl | rfl | rfl | rfl | rfl | rfl | rfl <;>
      simp [undefinedOp]

theorem witness_WrongLengthRefused :
    (asked []).requests = [] :: [] ∧
    (asked [0x40, 0x00]).requests = [0x40, 0x00] :: [] ∧ ¬ undefinedOp 0x40 ∧
      ([0x40, 0x00] : List Byte).length ≠ requestLength [0x40, 0x00] ∧
    (asked [0x01, 0x02, 0x00]).requests = [0x01, 0x02, 0x00] :: [] ∧ ¬ undefinedOp 0x01 ∧
      ([0x01, 0x02, 0x00] : List Byte).length ≠ requestLength [0x01, 0x02, 0x00] := by
  unfold undefinedOp
  decide +kernel

theorem witness_EveryRequestAnswered : (asked [0xC4]).requests = [0xC4] :: [] := rfl

/-- A state with a count of 2 that meets the invariant, and a step from it. -/
theorem witness_InvariantKept :
    Inv (twoTriples (asked [0xCB])) ∧ ∃ t, step (twoTriples (asked [0xCB])) = .next t := by
  refine ⟨⟨by decide +kernel, rfl, by decide, ?_, by decide, by decide, ?_, ?_, by decide +kernel, by decide +kernel,
    ?_, ?_, by decide +kernel, by decide +kernel⟩, _, rfl⟩
  · intro r h
    simp [twoTriples, asked, State.reset] at h
  · intro i h
    simp [twoTriples, asked, State.reset] at h
  · intro h
    simp [twoTriples, asked, State.reset] at h
  · intro i h
    have hi : i < 2 := h
    interval_cases i
    · exact ⟨_, rfl, by decide +kernel⟩
    · exact ⟨_, rfl, by decide +kernel⟩
  · intro _
    exact ⟨_, rfl, by decide +kernel⟩

theorem witness_ParametersFixed : isNext (step (asked [0xC4])) = true := by decide +kernel

theorem witness_RetryExhaustedNeverRaised :
    (asked [0xC4]).requests = [0xC4] :: [] ∧ isNext (step (asked [0xC4])) = true := by decide +kernel

/-- A failure, with a store that holds entries. -/
theorem witness_FailureKeepsStores :
    ∃ t, exec (.seqRead 3) (threePatterns State.reset) = .next t ∧ t.lastStatus ≠ 0 :=
  ⟨_, rfl, by decide +kernel⟩

theorem witness_StoresAndTransportApart :
    (isNext (exec .seqClear (threePatterns State.reset)) = true ∧ transportOp .seqClear = false) ∧
    isNext (exec .setValidate (device [ack])) = true ∧ transportOp .setValidate = true := by
  decide +kernel

theorem witness_OutboundPacketShape :
    4 ≤ defaultParams.p ∧ 1 < (packets defaultParams (List.replicate 65 0x11)).length := by decide +kernel

/-- A payload of the largest length, in nine packets. -/
theorem witness_MsgWriteCompletes :
    ([0x11] : List Byte).length ≤ 512 ∧ Accepts defaultParams (messageStream defaultParams ⟨0, 0, [0x11]⟩) [65] ∧
    (List.replicate 512 (0x11 : Byte)).length ≤ 512 ∧
    Accepts defaultParams (messageStream defaultParams ⟨0, 0, List.replicate 512 0x11⟩) (List.replicate 9 65) ∧
    (device []).txAnswers = (List.replicate 9 65).map TxAnswer.wrote ++ [.wrote 65] := by
  unfold Accepts
  decide +kernel

theorem witness_MsgWriteFirstFailureStops :
    (List.replicate 100 (0x11 : Byte)).length ≤ 512 ∧
    ([65] : List Nat).length < packetCount State.reset.cfg (4 + (List.replicate 100 (0x11 : Byte)).length) ∧
    (∀ n ∈ ([65] : List Nat), n ≤ 1 + State.reset.cfg.p) ∧
    { State.reset with txAnswers := [.wrote 65, .failed] }.txAnswers = ([65] : List Nat).map TxAnswer.wrote ++ .failed :: [] := by
  decide +kernel

/-- One byte more than the largest payload, with and without the reply flag. -/
theorem witness_LongPayloadRefused :
    512 < (List.replicate 513 (0x11 : Byte)).length ∧ (decodeFlags State.reset.cfg.flagLayout 0x02).reply = true := by
  decide +kernel

theorem witness_MsgReadCompletes :
    4 ≤ (served [replyExchange]).cfg.p ∧
    Carries (served [replyExchange]).cfg replyExchange.bufs 0x03 0x00 (List.replicate 16 0x11) ∧
    (served [replyExchange]).rxAnswers = replyExchange.bufs.map RxAnswer.data ++ [] := by
  unfold Carries
  decide +kernel

/-- At the first packet, and at the second of a reply of 61 bytes. -/
theorem witness_ReceiveFailureCloses :
    4 ≤ State.reset.cfg.p ∧
    (device [.timeout]).rxAnswers = ([] : List (List Byte)).map RxAnswer.data ++ .timeout :: [] ∧
    (∀ b ∈ [pad [0x03, 0x00, 0x3D, 0x00]], b.length = State.reset.cfg.inLead.val + State.reset.cfg.p) ∧
    u16 ([pad [0x03, 0x00, 0x3D, 0x00]].flatMap (streamBytes State.reset.cfg)) 2 ≤ 512 ∧
    [pad [0x03, 0x00, 0x3D, 0x00]].length
      < packetCount State.reset.cfg (4 + u16 ([pad [0x03, 0x00, 0x3D, 0x00]].flatMap (streamBytes State.reset.cfg)) 2) ∧
    (device [data [0x03, 0x00, 0x3D, 0x00], .error]).rxAnswers
      = [pad [0x03, 0x00, 0x3D, 0x00]].map RxAnswer.data ++ .error :: [] := by
  decide +kernel

/-- A length of 513. -/
theorem witness_ReplyLengthRefused :
    4 ≤ State.reset.cfg.p ∧
    (pad [0x03, 0x00, 0x01, 0x02]).length = State.reset.cfg.inLead.val + State.reset.cfg.p ∧
    512 < u16 (streamBytes State.reset.cfg (pad [0x03, 0x00, 0x01, 0x02])) 2 ∧
    (device [data [0x03, 0x00, 0x01, 0x02]]).rxAnswers = .data (pad [0x03, 0x00, 0x01, 0x02]) :: [] := by
  decide +kernel

/-- A message of one packet, written and read back. -/
theorem witness_LoopbackReassembly :
    ∃ total t,
      4 ≤ (device []).cfg.p ∧ ([0x11] : List Byte).length ≤ 512 ∧
      writeMessage ⟨⟨.write, true, false, 0⟩, 0, [0x11]⟩ (device []) = (.ok total, t) ∧
      t.trace = (device []).trace ++ [.tx (packetOf [0x02, 0x00, 0x01, 0x00, 0x11]) (.wrote 65)] ∧
      (device [data [0x02, 0x00, 0x01, 0x00, 0x11]]).cfg = (device []).cfg ∧
      (device [data [0x02, 0x00, 0x01, 0x00, 0x11]]).rxAnswers
        = (txBuffers [.tx (packetOf [0x02, 0x00, 0x01, 0x00, 0x11]) (.wrote 65)]).map
            (fun pkt => RxAnswer.data (pkt.drop (1 - (device []).cfg.inLead.val))) ++ [] :=
  ⟨_, _, by decide, by decide, rfl, by decide +kernel, rfl, by decide +kernel⟩

theorem witness_PacketCounts :
    (∃ total t, writeMessage ⟨⟨.write, true, false, 0⟩, 0, [0x11]⟩ (device []) = (.ok total, t)) ∧
    ∃ r t, readMessage (device [ack]) = (.ok r, t) :=
  ⟨⟨_, _, rfl⟩, _, _, rfl⟩

/-- The hypotheses of a transaction of MSG_TRANSACT under the default parameters. -/
theorem witness_MsgTransactCompletes :
    4 ≤ (served [ackExchange]).cfg.p ∧ (decodeFlags (served [ackExchange]).cfg.flagLayout 0x02).reply = true ∧
    ([0x11] : List Byte).length ≤ 512 ∧
    Exchange.goesThrough (served [ackExchange]).cfg (messageStream (served [ackExchange]).cfg ⟨0x02, 0, [0x11]⟩) ackExchange ∧
    (served [ackExchange]).txAnswers = ackExchange.counts.map TxAnswer.wrote ++ [] ∧
    (served [ackExchange]).rxAnswers = ackExchange.bufs.map RxAnswer.data ++ [] := by
  unfold Exchange.goesThrough Accepts Carries Acceptable
  decide +kernel

theorem witness_TransactNeedsReply : (decodeFlags State.reset.cfg.flagLayout 0x01).reply = false := by decide +kernel

/-- Each of the two checks, and every way the transaction fails. -/
theorem witness_ReplyChecks :
    packetCount defaultParams (messageStream defaultParams ⟨0x02, 0, []⟩).length = 1 ∧
    (∃ es, Attempt defaultParams (messageStream defaultParams ⟨0x02, 0, []⟩) (.error .teWrite) [.failed] [] es) ∧
    (decodeFlags State.reset.cfg.flagLayout 0x02).reply = true ∧
    (∀ x ∈ [nackExchange, emptyExchange],
      Accepts (served [x]).cfg (messageStream (served [x]).cfg ⟨0x02, 0, []⟩) x.counts ∧
      Carries (served [x]).cfg x.bufs x.flags x.seq x.payload ∧
      (served [x]).txAnswers = x.counts.map TxAnswer.wrote ++ [] ∧ (served [x]).rxAnswers = x.bufs.map RxAnswer.data ++ []) ∧
    (decodeFlags State.reset.cfg.flagLayout nackExchange.flags).error = true ∧
    (decodeFlags State.reset.cfg.flagLayout emptyExchange.flags).error = false ∧
    (decodeFlags State.reset.cfg.flagLayout emptyExchange.flags).rw = .read ∧ emptyExchange.payload = [] := by
  refine ⟨by decide +kernel, (failures_met _ (by decide +kernel)).1, ?_⟩
  unfold Accepts Carries
  decide +kernel

/-- Every field at its largest value. -/
theorem witness_PackedFieldPlaces : fitsWidth ⟨3, 63, 15, 15, 1, 1, 1, 1⟩ = true := by decide +kernel

theorem witness_PackerRoundTrip :
    fitsWidth ⟨3, 63, 15, 15, 1, 1, 1, 1⟩ = true ∧ packPattern (unpackPattern 0x0FFFFF) = 0x0FFFFF ∧
    packPattern (unpackPattern 0x100000) ≠ 0x100000 := by
  decide +kernel

/-- Every field at its largest value fits, and one field a value above does not: the responses of the two clauses. -/
theorem witness_PatPackCompletes :
    response (exec (.patPack ⟨3, 63, 15, 15, 1, 1, 1, 1⟩) State.reset) = [0, 0, 0xFF, 0xFF, 0x0F] ∧
    response (exec (.patPack ⟨3, 63, 15, 16, 1, 1, 1, 1⟩) State.reset) = [5, 7] := by
  decide +kernel

/-- The operands and the count at the ends of their ranges. -/
theorem witness_SeqAddCompletes :
    ∀ p ∈ ([⟨3, 24, 8, 7, 1, 1, 1, 1⟩, ⟨0, 0, 1, 0, 0, 0, 0, 0⟩] : List Pattern),
      (p.triggerType.toNat ≤ 3 ∧ p.patternIndex.toNat ≤ 24 ∧ 1 ≤ p.bitDepth.toNat ∧ p.bitDepth.toNat ≤ 8 ∧
        p.ledSelect.toNat ≤ 7 ∧ p.invertPattern.toNat ≤ 1 ∧ p.insertBlack.toNat ≤ 1 ∧ p.bufferSwap.toNat ≤ 1 ∧
        p.triggerOutPrevious.toNat ≤ 1) ∧
      State.reset.seqCount.toNat < 128 ∧ { State.reset with seqCount := 127 }.seqCount.toNat < 128 := by
  decide +kernel

/-- For each clause, an operand a value above (or below) its range, and the response the clause gives; `test_seqAdd_refusals`
has the capacity. -/
theorem witness_SeqAddRefusals :
    ([(⟨4, 25, 0, 8, 2, 0, 0, 0⟩, 7), (⟨3, 25, 9, 8, 2, 0, 0, 0⟩, 4), (⟨3, 24, 0, 8, 0, 2, 0, 0⟩, 5), (⟨3, 24, 9, 8, 0, 2, 0, 0⟩, 5),
      (⟨3, 24, 1, 8, 0, 2, 0, 0⟩, 6), (⟨3, 24, 8, 7, 2, 0, 0, 0⟩, 7), (⟨3, 24, 8, 7, 1, 2, 0, 0⟩, 7),
      (⟨3, 24, 8, 7, 1, 1, 2, 0⟩, 7), (⟨3, 24, 8, 7, 1, 1, 1, 2⟩, 7)] : List (Pattern × Byte)).all
      (fun (p, c) => response (exec (.seqAdd p) State.reset) == [5, c]) = true := by
  decide +kernel

/-- The last entry, the first index above it, and the largest operand. -/
theorem witness_SeqReadCompletes :
    (2 : Half).toNat < (threePatterns State.reset).seqCount.toNat ∧
    (threePatterns State.reset).seqCount.toNat ≤ (3 : Half).toNat ∧
    (threePatterns State.reset).seqCount.toNat ≤ (0xFFFF : Half).toNat ∧
    (Memory.read (threePatterns State.reset).seqEntry 2).isSome = true := by
  decide +kernel

theorem witness_SeqReadAfterAdd :
    (threePatterns State.reset).seqCount.toNat < 128 ∧
    ∃ t, exec (.seqAdd ⟨0, 24, 8, 7, 0, 0, 0, 0⟩) (threePatterns State.reset) = .next t ∧ t.lastStatus = 0 :=
  ⟨by decide +kernel, _, rfl, by decide +kernel⟩

theorem witness_VxAddCompletes :
    ∀ p ∈ ([⟨3, 25, 8, 7, 1, 1, 1, 1⟩, ⟨0, 0, 1, 0, 0, 0, 0, 0⟩] : List Pattern),
      (p.triggerType.toNat ≤ 3 ∧ p.patternIndex.toNat ≤ 25 ∧ 1 ≤ p.bitDepth.toNat ∧ p.bitDepth.toNat ≤ 8 ∧
        p.ledSelect.toNat ≤ 7 ∧ p.invertPattern.toNat ≤ 1 ∧ p.insertBlack.toNat ≤ 1 ∧ p.bufferSwap.toNat ≤ 1 ∧
        p.triggerOutPrevious.toNat ≤ 1) ∧
      State.reset.vxCount.toNat < 1824 ∧ { State.reset with vxCount := 1823 }.vxCount.toNat < 1824 := by
  decide +kernel

theorem witness_VxAddRefusals :
    ([(⟨4, 26, 0, 8, 2, 0, 0, 0⟩, 7), (⟨3, 26, 9, 8, 2, 0, 0, 0⟩, 4), (⟨3, 25, 0, 8, 0, 2, 0, 0⟩, 5), (⟨3, 25, 9, 8, 0, 2, 0, 0⟩, 5),
      (⟨3, 25, 1, 8, 0, 2, 0, 0⟩, 6), (⟨3, 25, 8, 7, 2, 0, 0, 0⟩, 7), (⟨3, 25, 8, 7, 1, 2, 0, 0⟩, 7),
      (⟨3, 25, 8, 7, 1, 1, 2, 0⟩, 7), (⟨3, 25, 8, 7, 1, 1, 1, 2⟩, 7)] : List (Pattern × Byte)).all
      (fun (p, c) => response (exec (.vxAdd p 1000 2000) State.reset) == [5, c]) = true := by
  decide +kernel

theorem witness_VxReadCompletes :
    (1 : Half).toNat < (twoTriples State.reset).vxCount.toNat ∧
    (twoTriples State.reset).vxCount.toNat ≤ (2 : Half).toNat ∧
    (Memory.read (twoTriples State.reset).vxEntry 1).isSome = true := by
  decide +kernel

/-- The hypotheses of every GET's completion, met by one reply of sixteen bytes (GetFieldsComplete, GetRawComplete,
GetDerivedComplete). -/
theorem witness_GetFieldsComplete (r : Reg) :
    4 ≤ (served [replyExchange]).cfg.p ∧
    Exchange.goesThrough (served [replyExchange]).cfg (getStream (served [replyExchange]).cfg r) replyExchange ∧
    (served [replyExchange]).txAnswers = replyExchange.counts.map TxAnswer.wrote ++ [] ∧
    (served [replyExchange]).rxAnswers = replyExchange.bufs.map RxAnswer.data ++ [] ∧
    ∀ w, (layoutOf (served [replyExchange]).cfg r).width = some w → w ≤ replyExchange.payload.length := by
  refine ⟨by decide, ⟨⟨?_, by decide⟩, ⟨by decide, rfl, by decide +kernel, by decide +kernel⟩, ⟨rfl, by decide⟩⟩, rfl, rfl, ?_⟩
  · cases r <;> rfl
  · intro w h
    cases r <;> cases h <;> decide

theorem witness_GetRawComplete :
    Exchange.goesThrough (served [replyExchange]).cfg (getStream (served [replyExchange]).cfg .version) replyExchange :=
  (witness_GetFieldsComplete .version).2.1

theorem witness_GetDerivedComplete :
    Exchange.goesThrough (served [replyExchange]).cfg (getStream (served [replyExchange]).cfg .validate) replyExchange :=
  (witness_GetFieldsComplete .validate).2.1

/-- A reply with no payload, for a register of one byte. -/
theorem witness_ShortReplyRefused :
    getOf .powerMode = some .getPowerMode ∧ 4 ≤ (served [ackExchange]).cfg.p ∧
    Exchange.goesThrough (served [ackExchange]).cfg (getStream (served [ackExchange]).cfg .powerMode) ackExchange ∧
    (served [ackExchange]).txAnswers = ackExchange.counts.map TxAnswer.wrote ++ [] ∧
    (served [ackExchange]).rxAnswers = ackExchange.bufs.map RxAnswer.data ++ [] ∧
    (layoutOf (served [ackExchange]).cfg .powerMode).width = some 1 ∧ ackExchange.payload.length < 1 := by
  unfold Exchange.goesThrough Accepts Carries Acceptable
  decide +kernel

/-- A GET and a SET whose transaction fails; `failures_met` has the other ways it can. -/
theorem witness_GetFailsAsTransact :
    getOf .hwStatus = some .getHwStatus ∧
    (∃ u, transact (getMsg (device [.timeout]).cfg .hwStatus) (device [.timeout]) = (.error .toRead, u)) ∧
    (∃ es, Attempt defaultParams (getStream defaultParams .hwStatus) (.error .toRead) [.wrote 65] [.timeout] es) ∧
    (∃ f, setForm (.setPatPeriod 8769 9000) = some f ∧ f.ok (device [.timeout]).cfg = true ∧
      2 + (f.raw (device [.timeout]).cfg).length ≤ 512 ∧
      (∃ u, transact (setMsg (device [.timeout]).cfg f.reg (f.raw (device [.timeout]).cfg)) (device [.timeout])
        = (.error .toRead, u)) ∧
      ∃ es, Attempt defaultParams (setStream defaultParams f.reg (f.raw defaultParams)) (.error .peNack) [.wrote 65]
        [data [0x06, 0x00, 0x00, 0x00]] es) :=
  ⟨rfl, ⟨_, rfl⟩, (failures_met _ (by decide +kernel)).2.1, _, rfl, by decide +kernel, by decide +kernel, ⟨_, rfl⟩,
    (failures_met _ (by decide +kernel)).2.2.2.2.1⟩

/-- Operands at the largest values that fit. -/
theorem witness_SetCheckedComplete :
    layoutFits (layoutOf State.reset.cfg .ledEnable) [1, 1, 1, 1] = true ∧
    layoutFits (layoutOf State.reset.cfg .inputSource) [7, 7] = true ∧
    layoutFits (layoutOf State.reset.cfg .testPattern) [15] = true ∧
    layoutFits (layoutOf State.reset.cfg .displayMode) [1] = true ∧
    layoutFits (layoutOf State.reset.cfg .gamma) [3, 1] = true ∧
    layoutFits (layoutOf State.reset.cfg .patDataSource) [3] = true ∧
    layoutFits (layoutOf State.reset.cfg .patSeqStatus) [3] = true ∧
    layoutFits (layoutOf State.reset.cfg .patConfig) [127, 1, 255, 63] = true ∧
    layoutFits (layoutOf State.reset.cfg .mboxMode) [3] = true ∧
    2 + (layoutPack (layoutOf State.reset.cfg .patConfig) [127, 1, 255, 63]).length ≤ 512 ∧
    Exchange.goesThrough (served [ackExchange]).cfg
      (setStream (served [ackExchange]).cfg .patConfig (layoutPack (layoutOf State.reset.cfg .patConfig) [127, 1, 255, 63]))
      ackExchange := by
  unfold Exchange.goesThrough Accepts Carries Acceptable
  decide +kernel

theorem witness_SetUncheckedComplete :
    2 + (layoutPack (layoutOf State.reset.cfg .powerMode) [255]).length ≤ 512 ∧
    ∀ rb ∈ ([(.powerMode, layoutPack (layoutOf State.reset.cfg .powerMode) [255]), (.ledCurrent, [0, 0, 255]),
        (.patTriggerMode, layoutPack (layoutOf State.reset.cfg .patTriggerMode) [255]),
        (.mboxOffset, layoutPack (layoutOf State.reset.cfg .mboxOffset) [255]), (.validate, State.reset.cfg.validateParams)] :
          List (Reg × List Byte)),
      2 + rb.2.length ≤ 512 ∧ Exchange.goesThrough (served [ackExchange]).cfg (setStream (served [ackExchange]).cfg rb.1 rb.2) ackExchange := by
  unfold Exchange.goesThrough Accepts Carries Acceptable
  decide +kernel

/-- A gap of 231, a gap of 230, and a period below the exposure. -/
theorem witness_SetPatPeriod :
    ((8769 : Word32).toNat ≤ (9000 : Word32).toNat ∧ 230 < (9000 : Word32).toNat - (8769 : Word32).toNat) ∧
    ¬ ((8770 : Word32).toNat ≤ (9000 : Word32).toNat ∧ 230 < (9000 : Word32).toNat - (8770 : Word32).toNat) ∧
    ¬ ((9001 : Word32).toNat ≤ (9000 : Word32).toNat ∧ 230 < (9000 : Word32).toNat - (9001 : Word32).toNat) ∧
    Exchange.goesThrough (served [ackExchange]).cfg
      (setStream (served [ackExchange]).cfg .patPeriod (layoutPack (layoutOf State.reset.cfg .patPeriod) [8769, 9000]))
      ackExchange := by
  unfold Exchange.goesThrough Accepts Carries Acceptable
  decide +kernel

/-- Each limit is passed by one; `test_set_refusals` has the responses. -/
theorem witness_SetFieldRangeRefused :
    (layoutFits (layoutOf State.reset.cfg .ledEnable) [1, 1, 1, 2] = false ∧
      layoutFits (layoutOf State.reset.cfg .inputSource) [7, 8] = false ∧
      layoutFits (layoutOf State.reset.cfg .testPattern) [16] = false ∧
      layoutFits (layoutOf State.reset.cfg .displayMode) [2] = false ∧
      layoutFits (layoutOf State.reset.cfg .gamma) [3, 2] = false ∧
      layoutFits (layoutOf State.reset.cfg .patDataSource) [4] = false ∧
      layoutFits (layoutOf State.reset.cfg .patSeqStatus) [4] = false ∧
      layoutFits (layoutOf State.reset.cfg .patConfig) [127, 1, 255, 64] = false ∧
      layoutFits (layoutOf State.reset.cfg .mboxMode) [4] = false) ∧
    State.reset.cfg.layout = defaultLayout ∧ 1 < (2 : Byte).toNat ∧ 7 < (8 : Byte).toNat ∧ 15 < (16 : Byte).toNat ∧
    3 < (4 : Byte).toNat ∧ 127 < (128 : Byte).toNat ∧ 63 < (64 : Byte).toNat :=
  ⟨by decide +kernel, rfl, by decide⟩

theorem witness_DefaultLayouts :
    (1 : Byte).toNat ≤ 1 ∧ (7 : Byte).toNat ≤ 7 ∧ (15 : Byte).toNat ≤ 15 ∧ (3 : Byte).toNat ≤ 3 ∧ (127 : Byte).toNat ≤ 127 ∧
    (63 : Byte).toNat ≤ 63 := by
  decide

theorem witness_CodecRoundTrips :
    layoutWf defaultLayout.gamma = true ∧ defaultLayout.gamma.width = some 1 ∧
    ([3, 1] : List Nat).length = defaultLayout.gamma.fields.length ∧ layoutFits defaultLayout.gamma [3, 1] = true ∧
    ([0x83] : List Byte).length = 1 ∧ layoutPack defaultLayout.gamma (layoutUnpack defaultLayout.gamma [0x83]) = [0x83] ∧
    layoutPack defaultLayout.gamma (layoutUnpack defaultLayout.gamma [0x87]) ≠ [0x87] := by
  decide +kernel

/-- A store of three entries, three acknowledgements, and a fourth or a timeout for step 4. -/
theorem witness_LutUploadCompletes :
    let s := threePatterns (served [ackExchange, ackExchange, ackExchange, ackExchange])
    4 ≤ s.cfg.p ∧ s.seqCount ≠ 0 ∧ s.seqCount.toNat ≤ 128 ∧ MailboxFits s.cfg ∧
    (∀ stream ∈ [openStream s.cfg, offsetStream s.cfg, lutStream s, closeStream s.cfg],
      Exchange.goesThrough s.cfg stream ackExchange) ∧
    (∃ es, Attempt s.cfg (closeStream s.cfg) (.error .toRead) [.wrote 65] [.timeout] es) ∧
    s.txAnswers = (ackExchange.counts ++ ackExchange.counts ++ ackExchange.counts).map TxAnswer.wrote ++ [.wrote 65] ++ [] ∧
    s.rxAnswers = (ackExchange.bufs ++ ackExchange.bufs ++ ackExchange.bufs).map RxAnswer.data ++ [ack] ++ [] := by
  refine ⟨by decide, by decide, by decide, ?_, ?_, (failures_met _ (by decide +kernel)).2.1, rfl, rfl⟩
  · unfold MailboxFits
    decide +kernel
  · unfold Exchange.goesThrough Accepts Carries Acceptable
    decide +kernel

/-- An empty store, and each row of R177's table with step 4 going through (FF, BF, 9B, 89) or failing (7F, 3F, 1B, 09). -/
theorem witness_StepMasks :
    State.reset.seqCount = 0 ∧ (threePatterns State.reset).seqCount ≠ 0 ∧
    isNext (exec .lutUpload (threePatterns (device [ack, ack, ack, ack]))) = true ∧
    (∃ v, UploadRow (threePatterns (device [ack, ack, ack, ack])) none 0xFF v) ∧
    (∃ v, UploadRow (threePatterns (device [ack, ack, ack, .timeout])) none 0x7F v) ∧
    (∃ v, UploadRow (threePatterns (device [ack, ack, .timeout, ack])) (some .toRead) 0xBF v) ∧
    (∃ v, UploadRow (threePatterns (device [ack, ack, .timeout, .error])) (some .toRead) 0x3F v) ∧
    (∃ v, UploadRow (threePatterns (device [ack, .error, ack])) (some .teRead) 0x9B v) ∧
    (∃ v, UploadRow (threePatterns (device [ack, .error, .timeout])) (some .teRead) 0x1B v) ∧
    (∃ v, UploadRow (threePatterns (device [data [0x06, 0, 0, 0], ack])) (some .peNack) 0x89 v) ∧
    ∃ v, UploadRow (threePatterns (device [data [0x06, 0, 0, 0], .timeout])) (some .peNack) 0x09 v :=
  ⟨rfl, by decide, by decide +kernel, ⟨_, .succeeds (r4 := .ok []) rfl rfl rfl rfl⟩,
    ⟨_, .succeeds (r4 := .error .toRead) rfl rfl rfl rfl⟩, ⟨_, .dataFails (r4 := .ok []) rfl rfl rfl rfl⟩,
    ⟨_, .dataFails (r4 := .error .teRead) rfl rfl rfl rfl⟩, ⟨_, .offsetFails (r4 := .ok []) rfl rfl rfl⟩,
    ⟨_, .offsetFails (r4 := .error .toRead) rfl rfl rfl⟩, ⟨_, .openFails (r4 := .ok []) rfl rfl⟩,
    ⟨_, .openFails (r4 := .error .toRead) rfl rfl⟩⟩

/-- Each of steps 1, 2 and 3 failing, by a NACK, a write failure and a timeout; step 4 going through or failing; and the answers of
the third clause. -/
theorem witness_MailboxClosedAfterFailure :
    let s := threePatterns { State.reset with
      txAnswers := List.replicate 4 (.wrote 65), rxAnswers := [ack, ack, .timeout, ack] }
    4 ≤ s.cfg.p ∧ s.seqCount ≠ 0 ∧ s.seqCount.toNat ≤ 128 ∧ MailboxFits s.cfg ∧
    (∀ stream ∈ [openStream s.cfg, offsetStream s.cfg, closeStream s.cfg], Exchange.goesThrough s.cfg stream ackExchange) ∧
    (∃ es, Attempt s.cfg (openStream s.cfg) (.error .peNack) [.wrote 65] [data [0x06, 0x00, 0x00, 0x00]] es) ∧
    (∃ es, Attempt s.cfg (offsetStream s.cfg) (.error .teWrite) [.failed] [] es) ∧
    (∃ es, Attempt s.cfg (lutStream s) (.error .toRead) [.wrote 65] [.timeout] es) ∧
    (∃ es, Attempt s.cfg (closeStream s.cfg) (.error .teRead) [.wrote 65] [data [0x03, 0x00, 0x3D, 0x00], .error] es) ∧
    s.txAnswers = (ackExchange.counts ++ ackExchange.counts).map TxAnswer.wrote ++ [.wrote 65] ++ [.wrote 65] ++ [] ∧
    s.rxAnswers = (ackExchange.bufs ++ ackExchange.bufs).map RxAnswer.data ++ [.timeout] ++ [ack] ++ [] := by
  refine ⟨by decide, by decide, by decide, ?_, ?_, (failures_met _ (by decide +kernel)).2.2.2.2.1,
    (failures_met _ (by decide +kernel)).1, (failures_met _ (by decide +kernel)).2.1,
    (failures_met _ (by decide +kernel)).2.2.1, rfl, rfl⟩
  · unfold MailboxFits
    decide +kernel
  · unfold Exchange.goesThrough Accepts Carries Acceptable
    decide +kernel

end Sys2Proof.Tests
end

/-! ## The stores, the end of every request, and the invariant (10_state.md)

What a store's count, canonical form and entries must be is said once for both stores (`StoreLegal`), and what every request can
do is said once for all fifty operations (`exec_requestEnd`): it leaves the stores alone, or it is one of five edits of a store. -/

namespace Sys2Proof.Machine

/-! ### Packed words by number (R95, R96, R59) -/

/-- A field joined above the bits set so far adds its value at its place. -/
theorem toNat_or_shiftLeft_field (acc : Word24) (f : Byte) (k : Nat) (hacc : acc.toNat < 2 ^ k)
    (hf : f.toNat * 2 ^ k < 2 ^ 24) : (acc ||| (f.setWidth 24 <<< k)).toNat = acc.toNat + f.toNat * 2 ^ k := by
  have hw : (f.setWidth 24).toNat = f.toNat := by
    rw [BitVec.toNat_setWidth]; have := f.isLt; omega
  rw [BitVec.toNat_or, BitVec.toNat_shiftLeft, hw, Nat.shiftLeft_eq, Nat.mod_eq_of_lt hf, Nat.or_comm, ← Nat.shiftLeft_eq,
    ← Nat.shiftLeft_add_eq_or_of_lt hacc, Nat.add_comm]

theorem fitsWidth_iff (p : Pattern) : fitsWidth p = true ↔
    p.triggerType.toNat ≤ 3 ∧ p.patternIndex.toNat ≤ 63 ∧ p.bitDepth.toNat ≤ 15 ∧ p.ledSelect.toNat ≤ 15 ∧
      p.invertPattern.toNat ≤ 1 ∧ p.insertBlack.toNat ≤ 1 ∧ p.bufferSwap.toNat ≤ 1 ∧ p.triggerOutPrevious.toNat ≤ 1 := by
  simp only [fitsWidth, decide_eq_true_eq]

/-- The packed word of a descriptor whose fields fit, as a number. -/
theorem packPattern_toNat {p : Pattern} (h : fitsWidth p = true) :
    (packPattern p).toNat = p.triggerType.toNat + p.patternIndex.toNat * 2 ^ 2 + p.bitDepth.toNat * 2 ^ 8
      + p.ledSelect.toNat * 2 ^ 12 + p.invertPattern.toNat * 2 ^ 16 + p.insertBlack.toNat * 2 ^ 17
      + p.bufferSwap.toNat * 2 ^ 18 + p.triggerOutPrevious.toNat * 2 ^ 19 := by
  obtain ⟨ht, hi, hd, hl, hv, hb, hs, ho⟩ := (fitsWidth_iff p).1 h
  have h0 : (p.triggerType.setWidth 24).toNat = p.triggerType.toNat := by rw [BitVec.toNat_setWidth]; omega
  have h1 := toNat_or_shiftLeft_field _ p.patternIndex 2 (by rw [h0]; omega) (by omega)
  have h2 := toNat_or_shiftLeft_field _ p.bitDepth 8 (by rw [h1]; omega) (by omega)
  have h3 := toNat_or_shiftLeft_field _ p.ledSelect 12 (by rw [h2]; omega) (by omega)
  have h4 := toNat_or_shiftLeft_field _ p.invertPattern 16 (by rw [h3]; omega) (by omega)
  have h5 := toNat_or_shiftLeft_field _ p.insertBlack 17 (by rw [h4]; omega) (by omega)
  have h6 := toNat_or_shiftLeft_field _ p.bufferSwap 18 (by rw [h5]; omega) (by omega)
  have h7 := toNat_or_shiftLeft_field _ p.triggerOutPrevious 19 (by rw [h6]; omega) (by omega)
  rw [packPattern, h7, h6, h5, h4, h3, h2, h1, h0]

/-- The 20 stored bits are the whole packed word. -/
theorem storedWord_toNat {p : Pattern} (h : fitsWidth p = true) : (storedWord p).toNat = (packPattern p).toNat := by
  have hp := packPattern_toNat h
  obtain ⟨ht, hi, hd, hl, hv, hb, hs, ho⟩ := (fitsWidth_iff p).1 h
  rw [storedWord, BitVec.toNat_setWidth]
  omega

/-- The ranged fields of a stored word, in their places (R59). -/
theorem storedWord_fields {p : Pattern} (h : fitsWidth p = true) :
    ((storedWord p).extractLsb' 2 6).toNat = p.patternIndex.toNat ∧
      ((storedWord p).extractLsb' 8 4).toNat = p.bitDepth.toNat ∧
      ((storedWord p).extractLsb' 12 4).toNat = p.ledSelect.toNat := by
  obtain ⟨ht, hi, hd, hl, hv, hb, hs, ho⟩ := (fitsWidth_iff p).1 h
  simp only [BitVec.extractLsb'_toNat, storedWord_toNat h, packPattern_toNat h, Nat.shiftRight_eq_div_pow]
  refine ⟨?_, ?_, ?_⟩ <;> omega

/-- Bit 18 of the stored word is the buffer swap. -/
theorem storedWord_bufferSwap {p : Pattern} (h : fitsWidth p = true) :
    (storedWord p).getLsbD 18 = decide (p.bufferSwap.toNat = 1) := by
  obtain ⟨ht, hi, hd, hl, hv, hb, hs, ho⟩ := (fitsWidth_iff p).1 h
  rw [BitVec.getLsbD, Nat.testBit_eq_decide_div_mod_eq, storedWord_toNat h, packPattern_toNat h, decide_eq_decide]
  omega

/-! ### Admission (R97 to R99) -/

/-- A descriptor is admitted exactly when each field is in the store's range. -/
theorem admissionError_eq_none_iff (maxIndex : Nat) (p : Pattern) : admissionError maxIndex p = none ↔
    p.triggerType.toNat ≤ 3 ∧ p.patternIndex.toNat ≤ maxIndex ∧ (1 ≤ p.bitDepth.toNat ∧ p.bitDepth.toNat ≤ Config.maxDepth) ∧
      p.ledSelect.toNat ≤ 7 ∧ p.invertPattern.toNat ≤ 1 ∧ p.insertBlack.toNat ≤ 1 ∧ p.bufferSwap.toNat ≤ 1 ∧
      p.triggerOutPrevious.toNat ≤ 1 := by
  unfold admissionError
  split_ifs <;> simp only [false_iff, true_iff] <;> omega

/-- Setting the buffer swap of the first entry keeps every field in range. -/
theorem admissionError_admitted {maxIndex : Nat} {p : Pattern} (h : admissionError maxIndex p = none) (storeEmpty : Bool) :
    admissionError maxIndex (admitted storeEmpty p) = none := by
  cases storeEmpty with
  | false => exact h
  | true =>
    rw [admissionError_eq_none_iff] at h ⊢
    obtain ⟨ht, hi, hd, hl, hv, hb, -, ho⟩ := h
    exact ⟨ht, hi, hd, hl, hv, hb, le_refl 1, ho⟩

theorem fitsWidth_of_admissionError {maxIndex : Nat} {p : Pattern} (hmax : maxIndex ≤ 63)
    (h : admissionError maxIndex p = none) : fitsWidth p = true := by
  obtain ⟨ht, hi, ⟨-, hd⟩, hl, hv, hb, hs, ho⟩ := (admissionError_eq_none_iff maxIndex p).1 h
  exact (fitsWidth_iff p).2 ⟨ht, hi.trans hmax, hd.trans (by decide), by omega, hv, hb, hs, ho⟩

/-- The word an admitted descriptor is stored as is in the store's ranges. -/
theorem wordLegal_storedWord {maxIndex : Nat} {p : Pattern} (hmax : maxIndex ≤ 63) (h : admissionError maxIndex p = none) :
    wordLegal maxIndex (storedWord p) = true := by
  have hf := fitsWidth_of_admissionError hmax h
  obtain ⟨-, hi, ⟨hd1, hd8⟩, hl, -⟩ := (admissionError_eq_none_iff maxIndex p).1 h
  obtain ⟨hpi, hpd, hpl⟩ := storedWord_fields hf
  simp only [wordLegal, hpi, hpd, hpl, decide_eq_true_eq]
  exact ⟨hi, hd1, hd8, hl⟩

/-! ### A legal store -/

/-- What `Inv` says of one store of capacity `cap` with `n` entries, `word` being the packed word of an entry: the count is within
the capacity, the store is in canonical form, the entries below the count are defined with their fields in range, and entry 0
has its buffer swap set (R23, R24, R26, R27, R112). -/
structure StoreLegal {α : Type} (word : α → PatternWord) (cap maxIndex : Nat) (m : List (Nat × α)) (n : Nat) : Prop where
  count : n ≤ cap
  wf : Memory.wf cap m = true
  legal : ∀ i, i < n → ∃ e, Memory.read m i = some e ∧ wordLegal maxIndex (word e) = true
  first : 0 < n → ∃ e, Memory.read m 0 = some e ∧ (word e).getLsbD 18 = true

section StoreLegal

variable {α : Type} {word : α → PatternWord} {cap maxIndex n : Nat} {m : List (Nat × α)}

/-- Clearing sets the count alone; the entries that stay are below no count. -/
theorem StoreLegal.clear (h : StoreLegal word cap maxIndex m n) : StoreLegal word cap maxIndex m 0 :=
  ⟨Nat.zero_le cap, h.wf, fun _ hi => absurd hi (Nat.not_lt_zero _), fun h0 => absurd h0 (Nat.lt_irrefl 0)⟩

/-- An append below the capacity of an entry in range, with its buffer swap set where it is the first. -/
theorem StoreLegal.append (h : StoreLegal word cap maxIndex m n) (hn : n < cap) {e : α}
    (he : wordLegal maxIndex (word e) = true) (hswap : n = 0 → (word e).getLsbD 18 = true) :
    StoreLegal word cap maxIndex (Memory.write m n e) (n + 1) where
  count := hn
  wf := Memory.wf_write m cap n e h.wf hn
  legal i hi := by
    by_cases hin : i = n
    · subst hin
      exact ⟨e, Memory.read_write_same m i e, he⟩
    · rw [Memory.read_write_other m n i e hin]
      exact h.legal i (by omega)
  first _ := by
    by_cases hn0 : n = 0
    · subst hn0
      exact ⟨e, Memory.read_write_same m 0 e, hswap rfl⟩
    · rw [Memory.read_write_other m n 0 e (Ne.symm hn0)]
      exact h.first (by omega)

/-- An append of an admitted descriptor, stored as R102 and R107 store it. -/
theorem StoreLegal.append_admitted (h : StoreLegal word cap maxIndex m n) (hmax : maxIndex ≤ 63) (hn : n < cap)
    {p : Pattern} (hp : admissionError maxIndex p = none) {storeEmpty : Bool} (hempty : n = 0 → storeEmpty = true)
    {e : α} (he : word e = storedWord (admitted storeEmpty p)) :
    StoreLegal word cap maxIndex (Memory.write m n e) (n + 1) := by
  have hp' := admissionError_admitted hp storeEmpty
  refine h.append hn (he ▸ wordLegal_storedWord hmax hp') fun hn0 => ?_
  rw [he, storedWord_bufferSwap (fitsWidth_of_admissionError hmax hp'), hempty hn0]
  rfl

end StoreLegal

/-- The pattern sequence store is legal. -/
def SeqLegal (s : State) : Prop := StoreLegal id Config.seqCap Config.seqMaxIndex s.seqEntry s.seqCount.toNat

/-- The variable-exposure store is legal. -/
def VxLegal (s : State) : Prop := StoreLegal VxEntry.word Config.vxCap Config.vxMaxIndex s.vxEntry s.vxCount.toNat

theorem Inv.seqStore {s : State} (h : Inv s) : SeqLegal s := ⟨h.seqCount, h.seqWf, h.seqLegal, h.seqFirst⟩

theorem Inv.vxStore {s : State} (h : Inv s) : VxLegal s := ⟨h.vxCount, h.vxWf, h.vxLegal, h.vxFirst⟩

theorem SeqLegal.of_kept {s t : State} (h : SeqLegal s) (k : SeqKept s t) : SeqLegal t := by
  obtain ⟨he, hc, -, -⟩ := k
  rwa [SeqLegal, he, hc]

theorem VxLegal.of_kept {s t : State} (h : VxLegal s) (k : VxKept s t) : VxLegal t := by
  obtain ⟨he, hc⟩ := k
  rwa [VxLegal, he, hc]

/-! ### What an operation does to the stores -/

/-- The edits of the stores: what the store operations can do to them, each with the checks it has passed (R101 to R107). -/
inductive StoreEdit (s : State) : State → Prop where
  | seqClear : StoreEdit s { s with seqCount := 0 }
  | seqAdd (p : Pattern) (hp : seqCheck p = none) (hroom : s.seqCount.toNat ≠ Config.seqCap) : StoreEdit s (s.appendSeq p)
  | seqSetTiming (exposure period : Word32) : StoreEdit s { s with seqExposure := exposure, seqPeriod := period }
  | vxClear : StoreEdit s { s with vxCount := 0 }
  | vxAdd (p : Pattern) (exposure period : Word32) (hp : vxCheck p = none) (hroom : s.vxCount.toNat ≠ Config.vxCap) :
      StoreEdit s (s.appendVx p exposure period)

/-- An edit of the stores changes nothing else. -/
theorem StoreEdit.frame {s u : State} (h : StoreEdit s u) :
    u.cfg = s.cfg ∧ u.requests = s.requests ∧ u.responses = s.responses ∧ u.mboxStep = s.mboxStep ∧ NoTraffic s u := by
  cases h <;> exact ⟨rfl, rfl, rfl, rfl, rfl, rfl, rfl⟩

/-- An edit of the stores keeps the pattern sequence store legal. -/
theorem StoreEdit.seqLegal {s u : State} (h : StoreEdit s u) (hs : SeqLegal s) : SeqLegal u := by
  cases h with
  | seqClear => exact StoreLegal.clear hs
  | seqAdd p hp hroom =>
    have hlt : s.seqCount.toNat < 128 := lt_of_le_of_ne hs.count hroom
    have hcount : (s.seqCount + 1).toNat = s.seqCount.toNat + 1 := by bv_omega
    rw [SeqLegal, State.appendSeq_seqEntry, State.appendSeq_seqCount, hcount]
    exact hs.append_admitted (by decide) hlt hp (fun h0 => beq_iff_eq.2 (BitVec.eq_of_toNat_eq h0)) rfl
  | seqSetTiming => exact hs
  | vxClear => exact hs
  | vxAdd => exact hs

/-- An edit of the stores keeps the variable-exposure store legal. -/
theorem StoreEdit.vxLegal {s u : State} (h : StoreEdit s u) (hs : VxLegal s) : VxLegal u := by
  cases h with
  | seqClear => exact hs
  | seqAdd => exact hs
  | seqSetTiming => exact hs
  | vxClear => exact StoreLegal.clear hs
  | vxAdd p exposure period hp hroom =>
    have hlt : s.vxCount.toNat < 1824 := lt_of_le_of_ne hs.count hroom
    have hcount : (s.vxCount + 1).toNat = s.vxCount.toNat + 1 := by bv_omega
    rw [VxLegal, State.appendVx_vxEntry, State.appendVx_vxCount, hcount]
    exact hs.append_admitted (by decide) hlt hp (fun h0 => beq_iff_eq.2 (BitVec.eq_of_toNat_eq h0)) rfl

/-- The ways an operation on the stores or the packer ends. -/
inductive StoreOpEnd (s : State) : State → Prop where
  | raised (c : Cause) : StoreOpEnd s (s.raise c [])
  | answered (result : List Byte) : StoreOpEnd s (s.succeed result)
  | edited {u : State} (h : StoreEdit s u) (result : List Byte) : StoreOpEnd s (u.succeed result)

/-! ### What every operation does at its end -/

/-- The operations of one transaction (MSG_*, GET.*, SET.*) end as `TransportEnded` says. -/
theorem exec_transportEnded (i : Instr) (s : State) (ht : transportOp i = true) (hi : i ≠ .lutUpload) :
    ∃ t, exec i s = .next t ∧ TransportEnded s t := by
  cases i with
  | msgWrite m => exact ⟨_, rfl, .finishWith _ _ (writeMessage_traffic _ s)⟩
  | msgRead => exact ⟨_, rfl, .finishWith _ _ (readMessage_traffic s)⟩
  | msgTransact m => exact ⟨_, rfl, .finishWith _ _ (transact_traffic _ s)⟩
  | getPowerMode | getLedEnable | getLedCurrent | getInputSource | getTestPattern | getDisplayMode | getGamma
  | getPatTriggerMode | getPatDataSource | getPatSeqStatus | getPatPeriod | getPatConfig | getMboxMode | getMboxOffset
  | getValidate | getVersion | getFirmwareTag | getHwStatus | getSysStatus | getMainStatus =>
    exact ⟨_, rfl, .finishWith _ _ (regGet_traffic _ s)⟩
  | setPowerMode | setPatTriggerMode | setMboxOffset => exact ⟨_, rfl, .finish _ (packSet_traffic _ _ s)⟩
  | setLedEnable | setInputSource | setTestPattern | setDisplayMode | setGamma | setPatDataSource | setPatSeqStatus
  | setPatConfig | setMboxMode => exact ⟨_, rfl, .finish _ (checkedSet_traffic _ _ s)⟩
  | setLedCurrent | setValidate => exact ⟨_, rfl, .finish _ (regSet_traffic _ _ s)⟩
  | setPatPeriod exposure period =>
    refine ⟨_, rfl, ?_⟩
    split
    · exact .finish _ (regSet_traffic _ _ s)
    · exact .finish (.error .pvPeriod, s) (Traffic.refl s)
  | lutUpload => exact absurd rfl hi
  | seqClear | seqAdd | seqSetTiming | seqRead | seqStatus | vxClear | vxAdd | vxRead | vxStatus | patPack | patUnpack =>
    cases ht

/-- LUT_UPLOAD gives one response, leaves the stores alone and ends with MBOX_STEP idle (R172). -/
theorem exec_lutUpload_ended (s : State) :
    ∃ t, exec .lutUpload s = .next t ∧ Ended s t ∧ StoresKept s t ∧ t.mboxStep = .idle := by
  refine ⟨_, rfl, ?_⟩
  split
  · exact ⟨Ended.raise _ _ rfl rfl rfl ⟨[], by simp⟩, StoresKept.refl s, rfl⟩
  · exact finishUpload_ended s

/-- The operations on the stores and the packer end as `StoreOpEnd` says. -/
theorem exec_storeOpEnd (i : Instr) (s : State) (hi : transportOp i = false) :
    ∃ t, exec i s = .next t ∧ StoreOpEnd s t := by
  cases i with
  | seqClear => exact ⟨_, rfl, .edited .seqClear _⟩
  | seqAdd p =>
    refine ⟨_, rfl, ?_⟩
    split
    · exact .raised _
    · next hp =>
      split
      · exact .raised _
      · next hroom => exact .edited (.seqAdd p hp hroom) _
  | seqSetTiming exposure period => exact ⟨_, rfl, .edited (.seqSetTiming exposure period) _⟩
  | vxClear => exact ⟨_, rfl, .edited .vxClear _⟩
  | vxAdd p exposure period =>
    refine ⟨_, rfl, ?_⟩
    split
    · exact .raised _
    · next hp =>
      split
      · exact .raised _
      · next hroom => exact .edited (.vxAdd p exposure period hp hroom) _
  | seqRead | vxRead =>
    refine ⟨_, rfl, ?_⟩
    split
    · exact .raised _
    · exact .answered _
  | patPack =>
    refine ⟨_, rfl, ?_⟩
    split
    · exact .answered _
    · exact .raised _
  | seqStatus | vxStatus | patUnpack => exact ⟨_, rfl, .answered _⟩
  | _ => cases hi

/-- The ways any request ends: it left the stores alone, or it succeeded and one edit of the stores was made. Either way it gave
one response, and MBOX_STEP does not leave IDLE. -/
inductive RequestEnd (s : State) : State → Prop where
  | kept {t : State} (ended : Ended s t) (stores : StoresKept s t) (idle : s.mboxStep = .idle → t.mboxStep = .idle) :
      RequestEnd s t
  | edited {u : State} (h : StoreEdit s u) (result : List Byte) : RequestEnd s (u.succeed result)

/-- An exception at once leaves everything alone but the response (R184). -/
theorem RequestEnd.raised (s : State) (c : Cause) : RequestEnd s (s.raise c []) :=
  .kept (Ended.raise c [] rfl rfl rfl ⟨[], by simp⟩) (StoresKept.refl s) fun _ => rfl

/-- Every operation ends, with a next state, in one of these ways. -/
theorem exec_requestEnd (i : Instr) (s : State) : ∃ t, exec i s = .next t ∧ RequestEnd s t := by
  by_cases hup : i = .lutUpload
  · subst hup
    obtain ⟨t, ht, hended, hstores, hidle⟩ := exec_lutUpload_ended s
    exact ⟨t, ht, .kept hended hstores fun _ => hidle⟩
  · cases htr : transportOp i with
    | true =>
      obtain ⟨t, ht, h⟩ := exec_transportEnded i s htr hup
      exact ⟨t, ht, .kept h.ended h.stores h.mboxStep⟩
    | false =>
      obtain ⟨t, ht, h⟩ := exec_storeOpEnd i s htr
      refine ⟨t, ht, ?_⟩
      cases h with
      | raised c => exact .raised s c
      | answered result =>
        exact .kept (Ended.succeed result rfl rfl rfl ⟨[], by simp⟩) (StoresKept.refl s) id
      | edited h result => exact .edited h result

theorem RequestEnd.ended {s t : State} (h : RequestEnd s t) : Ended s t := by
  cases h with
  | kept h => exact h
  | edited h result =>
    obtain ⟨hcfg, hreq, hresp, -, htrace, -⟩ := h.frame
    exact Ended.succeed result hcfg hreq hresp ⟨[], by simp [htrace]⟩

theorem RequestEnd.mboxIdle {s t : State} (h : RequestEnd s t) (hs : s.mboxStep = .idle) : t.mboxStep = .idle := by
  cases h with
  | kept _ _ hidle => exact hidle hs
  | edited h =>
    obtain ⟨-, -, -, hmbox, -⟩ := h.frame
    exact hmbox.trans hs

theorem RequestEnd.seqLegal {s t : State} (h : RequestEnd s t) (hs : SeqLegal s) : SeqLegal t := by
  cases h with
  | kept _ hstores => exact hs.of_kept hstores.1
  | edited h => exact h.seqLegal hs

theorem RequestEnd.vxLegal {s t : State} (h : RequestEnd s t) (hs : VxLegal s) : VxLegal t := by
  cases h with
  | kept _ hstores => exact hs.of_kept hstores.2
  | edited h => exact h.vxLegal hs

/-! ### The step -/

/-- The step with no request presented. -/
theorem step_of_requests_nil {s : State} (h : s.requests = []) : step s = .next s := by
  simp only [step, State.takeRequest, h]

/-- The step that takes a request of the instruction `i`. -/
theorem step_of_decode_ok {s : State} {r : List Byte} {rest : List (List Byte)} {i : Instr} (h : s.requests = r :: rest)
    (hd : decode r = .ok i) : step s = exec i { s with requests := rest } := by
  simp only [step, State.takeRequest, h, hd]

/-- The step that takes a request the decoder refuses. -/
theorem step_of_decode_error {s : State} {r : List Byte} {rest : List (List Byte)} {e : DecodeError}
    (h : s.requests = r :: rest) (hd : decode r = .error e) :
    step s = .next (({ s with requests := rest }).refuseRequest e) := by
  simp only [step, State.takeRequest, h, hd]

/-- Every request is taken and ends. -/
theorem step_requestEnd {s : State} {r : List Byte} {rest : List (List Byte)} (h : s.requests = r :: rest) :
    ∃ t, step s = .next t ∧ RequestEnd { s with requests := rest } t := by
  cases hd : decode r with
  | ok i =>
    rw [step_of_decode_ok h hd]
    exact exec_requestEnd i _
  | error e => exact ⟨_, step_of_decode_error h hd, .raised _ _⟩

/-! ### The invariant -/

/-- What remains to be shown of a request that ended, for the invariant to hold after it. -/
theorem Inv.of_ended {s t : State} (hs : Inv s) (h : Ended s t) (hidle : t.mboxStep = .idle) (hseq : SeqLegal t)
    (hvx : VxLegal t) : Inv t where
  params := by rw [h.cfg]; exact hs.params
  mboxIdle := hidle
  codes := h.codes
  mirrors r hr := by
    obtain ⟨result, hresult⟩ := h.response
    rw [hresult, List.getLast?_concat, Option.some.injEq] at hr
    rw [← hr]
    rfl
  seqCount := hseq.count
  seqWf := hseq.wf
  seqLegal := hseq.legal
  seqFirst := hseq.first
  vxCount := hvx.count
  vxWf := hvx.wf
  vxLegal := hvx.legal
  vxFirst := hvx.first
  txbuf := h.txbuf
  rxbuf := by rw [h.cfg]; exact h.rxbuf

/-- The end of a request keeps the invariant. -/
theorem Inv.of_requestEnd {s t : State} (hs : Inv s) (h : RequestEnd s t) : Inv t :=
  hs.of_ended h.ended (h.mboxIdle hs.mboxIdle) (h.seqLegal hs.seqStore) (h.vxLegal hs.vxStore)

/-- The invariant does not speak of the requests to come. -/
theorem Inv.withRequests {s : State} (h : Inv s) (rest : List (List Byte)) : Inv { s with requests := rest } :=
  { h with }

/-- Among the legal pairs, the cause is 0 exactly when the status is (R22). -/
theorem legalCodes_cause_zero_iff {st ca : Byte} (h : (st, ca) ∈ legalCodes) : ca = 0 ↔ st = 0 := by
  have hall : (legalCodes.all fun c => decide (c.2 = 0 ↔ c.1 = 0)) = true := by decide
  exact of_decide_eq_true (List.all_eq_true.1 hall (st, ca) h)

/-! ### The obligations -/

/-- Settles O10: a step waits, or the end of the request it takes keeps the invariant. -/
theorem invariantKept : Obligations.InvariantKept := by
  intro s t hs hstep
  cases hreq : s.requests with
  | nil =>
    rw [step_of_requests_nil hreq, Host.Outcome.next.injEq] at hstep
    exact hstep ▸ hs
  | cons r rest =>
    obtain ⟨u, hu, hend⟩ := step_requestEnd hreq
    rw [hu, Host.Outcome.next.injEq] at hstep
    exact hstep ▸ (hs.withRequests rest).of_requestEnd hend

/-- Settles O9: the end of every request is `Ended`. -/
theorem everyRequestAnswered : Obligations.EveryRequestAnswered := by
  intro s r rest hreq
  obtain ⟨t, hstep, hend⟩ := step_requestEnd hreq
  have h := hend.ended
  obtain ⟨result, hresult⟩ := h.response
  exact ⟨t, _, hstep, h.requests, hresult, rfl, h.codes, legalCodes_cause_zero_iff h.codes, h.trace⟩

/-- Settles O5, by the equation of a step whose request decodes. -/
theorem stepRunsDecodedRequest : Obligations.StepRunsDecodedRequest :=
  fun _ _ _ _ hreq hdec => step_of_decode_ok hreq hdec

/-- Settles O11. -/
theorem invariantAtReset : Obligations.InvariantAtReset where
  params := by decide +kernel
  mboxIdle := rfl
  codes := by decide
  mirrors r hr := by cases hr
  seqCount := by decide
  seqWf := reset_seq_wf
  seqLegal i hi := absurd hi (Nat.not_lt_zero i)
  seqFirst h := absurd h (Nat.lt_irrefl 0)
  vxCount := by decide
  vxWf := reset_vx_wf
  vxLegal i hi := absurd hi (Nat.not_lt_zero i)
  vxFirst h := absurd h (Nat.lt_irrefl 0)
  txbuf := Nat.zero_le _
  rxbuf := Nat.zero_le _

/-- Settles O16: every field is as `State.reset` sets it, and an empty store reads nothing at any index. -/
theorem resetValues : Obligations.ResetValues :=
  ⟨rfl, rfl, rfl, rfl, fun _ => rfl, fun _ => rfl, rfl, rfl, rfl, rfl⟩

end Sys2Proof.Machine

/-! ## A store write is seen by the next request (20_memory.md R46)

SEQ_ADD ends in one of three ways (R102); only the append answers OK, and SEQ_READ of the appended index finds its entry. -/

namespace Sys2Proof.Machine

/-! ### SEQ_ADD and SEQ_READ (R102, R104) -/

/-- What SEQ_ADD can do: the admission check fails, the store is full, or the descriptor is appended. -/
theorem exec_seqAdd_cases {p : Pattern} {s t : State} (h : exec (.seqAdd p) s = .next t) :
    (∃ c, seqCheck p = some c ∧ t = s.raise c []) ∨
      (seqCheck p = none ∧ s.seqCount.toNat = Config.seqCap ∧ t = s.raise .pvCapacity []) ∨
      (seqCheck p = none ∧ s.seqCount.toNat ≠ Config.seqCap ∧ t = (s.appendSeq p).succeed [s.seqCount]) := by
  have ht := (Host.Outcome.next.inj h).symm
  cases hc : seqCheck p with
  | some c =>
    rw [hc] at ht
    exact .inl ⟨c, rfl, ht⟩
  | none =>
    simp only [hc] at ht
    split at ht
    · next hfull => exact .inr (.inl ⟨rfl, hfull, ht⟩)
    · next hroom => exact .inr (.inr ⟨rfl, hroom, ht⟩)

/-- A request that ended in an exception does not leave LAST_STATUS at OK. -/
theorem State.raise_lastStatus_ne_zero (s : State) (c : Cause) (res : List Byte) : (s.raise c res).lastStatus ≠ 0 :=
  (cause_codes c).2.1

/-- SEQ_ADD answers OK only where it appended an admitted descriptor to a store with room. -/
theorem exec_seqAdd_of_ok {p : Pattern} {s t : State} (h : exec (.seqAdd p) s = .next t) (hok : t.lastStatus = 0) :
    seqCheck p = none ∧ s.seqCount.toNat ≠ Config.seqCap ∧ t = (s.appendSeq p).succeed [s.seqCount] := by
  obtain ⟨c, -, rfl⟩ | ⟨-, -, rfl⟩ | happended := exec_seqAdd_cases h
  · exact absurd hok (s.raise_lastStatus_ne_zero c [])
  · exact absurd hok (s.raise_lastStatus_ne_zero .pvCapacity [])
  · exact happended

/-- The word of an entry that was written. -/
theorem State.seqWord_of_read {s : State} {i : Nat} {w : PatternWord} (h : Memory.read s.seqEntry i = some w) :
    s.seqWord i = w := by
  rw [State.seqWord, h, Option.getD_some]

/-- SEQ_READ below the count. -/
theorem exec_seqRead_of_lt {s : State} {index : Half} (h : index.toNat < s.seqCount.toNat) :
    exec (.seqRead index) s = .next (s.succeed (le24 (s.seqWord index.toNat).toNat)) :=
  congrArg Host.Outcome.next (if_neg (Nat.not_le.2 h))

/-- A success that edits no store and causes no event. -/
theorem succeed_answeredQuietly (s : State) (res : List Byte) : AnsweredQuietly s (s.succeed res) (0 :: 0 :: res) := by
  obtain ⟨hanswered, hstores, htraffic, -⟩ := succeed_answered s res
  exact ⟨hanswered, hstores, htraffic⟩

/-! ### The appended entry -/

/-- The first entry of an empty store has its buffer swap set (R99), the count read as a number. -/
theorem admitted_count_beq_zero {n : Nat} (count : BitVec n) (p : Pattern) :
    admitted (count == 0) p = if count.toNat = 0 then { p with bufferSwap := 1 } else p := by
  have hzero : count = 0 ↔ count.toNat = 0 := by simp [← BitVec.toNat_inj]
  simp only [admitted, beq_iff_eq, hzero]

/-- The entry an append writes holds the descriptor's whole packed word. -/
theorem appendSeq_seqWord {p : Pattern} (hp : seqCheck p = none) (s : State) :
    ((s.appendSeq p).seqWord s.seqCount.toNat).toNat = (packPattern (admitted (s.seqCount == 0) p)).toNat := by
  have hread : Memory.read (s.appendSeq p).seqEntry s.seqCount.toNat = some (storedWord (admitted (s.seqCount == 0) p)) :=
    Memory.read_write_same _ _ _
  have hfits : fitsWidth (admitted (s.seqCount == 0) p) = true :=
    fitsWidth_of_admissionError (by decide) (admissionError_admitted hp _)
  rw [State.seqWord_of_read hread, storedWord_toNat hfits]

/-! ### The obligation -/

/-- Settles O39: the OK answer means the descriptor was appended at the old count, which is below the new one, so SEQ_READ gives
the word the append wrote. -/
theorem seqReadAfterAdd : Obligations.SeqReadAfterAdd := by
  intro s t p hroom hadd hok
  obtain ⟨hp, -, ht⟩ := exec_seqAdd_of_ok hadd hok
  have hindex : (s.seqCount.setWidth 16 : Half).toNat = s.seqCount.toNat := by bv_omega
  have hcount : t.seqCount.toNat = s.seqCount.toNat + 1 := by
    rw [ht, State.succeed_seqCount, State.appendSeq_seqCount]
    bv_omega
  have hword : (t.seqWord s.seqCount.toNat).toNat = (packPattern (admitted (s.seqCount == 0) p)).toNat := by
    rw [ht]
    exact appendSeq_seqWord hp s
  have hread := exec_seqRead_of_lt (s := t) (index := s.seqCount.setWidth 16) (by omega)
  rw [hindex, hword, admitted_count_beq_zero] at hread
  exact ⟨_, hread, succeed_answeredQuietly t _⟩

end Sys2Proof.Machine

/-! ## Requests: the encoder and the decoder (30_encoding.md sections 1 to 3)

What the decoder can answer is said once for all op values (`decode_decodes`): the op is undefined, the length is wrong, or the
request is the encoding of the instruction read. The round trip and the refusals follow from it. -/

namespace Sys2Proof

/-! ### Operands of whole bytes (R9) -/

/-- The number read from `n` bytes, held in `8·n` bits, is written back as the same bytes. -/
theorem leBytes_ofNat_leNat {n w : Nat} (hw : w = 8 * n) {bs : List Byte} (hn : bs.length = n) :
    leBytes n (BitVec.ofNat w (leNat bs)).toNat = bs := by
  subst hw hn
  have hlt : leNat bs < 2 ^ (8 * bs.length) := by
    rw [Nat.pow_mul]
    exact leNat_lt bs
  rw [BitVec.toNat_ofNat, Nat.mod_eq_of_lt hlt, leBytes_leNat]

/-- The bytes of an F_INDEX operand are those of the index read from it (R72). -/
theorem le16_of_length {bs : List Byte} (h : bs.length = 2) : le16 (BitVec.ofNat 16 (u16 bs 0)).toNat = bs := by
  rw [u16, List.drop_zero, List.take_of_length_le h.le, le16, leBytes_ofNat_leNat rfl h]

/-- The bytes of an F_WORD3 operand are those of the word read from it (R73). -/
theorem le24_of_length {bs : List Byte} (h : bs.length = 3) : le24 (BitVec.ofNat 24 (u24 bs 0)).toNat = bs := by
  rw [u24, List.drop_zero, List.take_of_length_le h.le, le24, leBytes_ofNat_leNat rfl h]

/-- The bytes of an F_PERIOD operand are those of the two words read from it (R68). -/
theorem periodBytes_of_length {bs : List Byte} (h : bs.length = 8) :
    periodBytes (BitVec.ofNat 32 (u32 bs 0)) (BitVec.ofNat 32 (u32 bs 4)) = bs := by
  have hexposure : ((bs.drop 0).take 4).length = 4 := by simp [h]
  have hperiod : ((bs.drop 4).take 4).length = 4 := by simp [h]
  have hrest : (bs.drop 4).take 4 = bs.drop 4 := List.take_of_length_le (by simp [h])
  rw [periodBytes, le32, le32, u32, u32, leBytes_ofNat_leNat rfl hexposure, leBytes_ofNat_leNat rfl hperiod, hrest,
    List.drop_zero, List.take_append_drop]

/-- An F_PERIOD operand reads back (R68). -/
theorem readPeriod_periodBytes (k : Word32 → Word32 → Instr) (exposure period : Word32) :
    readPeriod k (periodBytes exposure period) = .ok (k exposure period) := by
  have hlen : (periodBytes exposure period).length = 8 := rfl
  have hexposure : u32 (periodBytes exposure period) 0 = leNat (leBytes 4 exposure.toNat) := rfl
  have hperiod : u32 (periodBytes exposure period) 4 = leNat (leBytes 4 period.toNat) := rfl
  rw [readPeriod, if_pos hlen, hexposure, hperiod, ofNat_leNat_leBytes 4 32 rfl, ofNat_leNat_leBytes 4 32 rfl]

/-- An F_INDEX operand reads back (R72). -/
theorem readIndex_le16 (k : Half → Instr) (index : Half) : readIndex k (le16 index.toNat) = .ok (k index) :=
  congrArg (Except.ok ∘ k) (ofNat_leNat_leBytes 2 16 rfl index)

/-- An F_WORD3 operand reads back (R73). -/
theorem readWord3_le24 (k : Word24 → Instr) (word : Word24) : readWord3 k (le24 word.toNat) = .ok (k word) :=
  congrArg (Except.ok ∘ k) (ofNat_leNat_leBytes 3 24 rfl word)

/-! ### What the decoder answers (R76, R77, R183) -/

/-- The op values with no format are those of R77's list, over the 256 values. -/
theorem formatOf_eq_none_iff : ∀ op : Byte, formatOf op = none ↔ Machine.undefinedOp op := by
  unfold Machine.undefinedOp
  decide +kernel

/-- The answers the decoder can give to a request. -/
inductive Decodes : List Byte → Except DecodeError Instr → Prop where
  | noFormat {op : Byte} {bs : List Byte} (h : formatOf op = none) : Decodes (op :: bs) (.error .opcode)
  | wrongLength {r : List Byte} : Decodes r (.error .length)
  | request {r : List Byte} {i : Instr} (hr : encode i = r) (hi : i.wellFormed = true) : Decodes r (.ok i)

section Readers

/-! Each reader takes exactly the operand bytes of its format, and refuses any others as a wrong length. -/

variable {op : Byte} {bs : List Byte}

theorem readNone_decodes {i : Instr} (h : Decodes [op] (.ok i)) : Decodes (op :: bs) (readNone i bs) := by
  unfold readNone
  split
  · exact h
  · exact .wrongLength

theorem readReg8_decodes {k : Byte → Instr} (h : ∀ v, Decodes [op, v] (.ok (k v))) :
    Decodes (op :: bs) (readReg8 k bs) := by
  unfold readReg8
  split
  · exact h _
  · exact .wrongLength

theorem readTwo_decodes {k : Byte → Byte → Instr} (h : ∀ a b, Decodes [op, a, b] (.ok (k a b))) :
    Decodes (op :: bs) (readTwo k bs) := by
  unfold readTwo
  split
  · exact h _ _
  · exact .wrongLength

theorem readThree_decodes {k : Byte → Byte → Byte → Instr} (h : ∀ a b c, Decodes [op, a, b, c] (.ok (k a b c))) :
    Decodes (op :: bs) (readThree k bs) := by
  unfold readThree
  split
  · exact h _ _ _
  · exact .wrongLength

theorem readFour_decodes {k : Byte → Byte → Byte → Byte → Instr}
    (h : ∀ a b c d, Decodes [op, a, b, c, d] (.ok (k a b c d))) :
    Decodes (op :: bs) (readFour k bs) := by
  unfold readFour
  split
  · exact h _ _ _ _
  · exact .wrongLength

theorem readMsg_decodes {k : Envelope → Instr} (h : ∀ m, m.wellFormed = true → Decodes (op :: m.bytes) (.ok (k m))) :
    Decodes (op :: bs) (readMsg k bs) := by
  unfold readMsg
  split
  · next flags seq l0 l1 payload =>
    split
    · next hlen =>
      have hlt : payload.length < 256 ^ 2 := lt_of_eq_of_lt hlen (leNat_lt [l0, l1])
      have hwf : (Envelope.mk flags seq payload).wellFormed = true := decide_eq_true hlt
      have hbytes : (Envelope.mk flags seq payload).bytes = flags :: seq :: l0 :: l1 :: payload := by
        have hl : le16 payload.length = [l0, l1] := hlen ▸ leBytes_leNat [l0, l1]
        simp only [Envelope.bytes, hl, List.cons_append, List.nil_append]
      exact hbytes ▸ h _ hwf
    · exact .wrongLength
  · exact .wrongLength

theorem readPattern_decodes {k : Pattern → Instr} (h : ∀ p, Decodes (op :: p.bytes) (.ok (k p))) :
    Decodes (op :: bs) (readPattern k bs) := by
  unfold readPattern
  split
  · exact h ⟨_, _, _, _, _, _, _, _⟩
  · exact .wrongLength

theorem readPeriod_decodes {pre : List Byte} {k : Word32 → Word32 → Instr}
    (h : ∀ e p, Decodes (op :: (pre ++ periodBytes e p)) (.ok (k e p))) :
    Decodes (op :: (pre ++ bs)) (readPeriod k bs) := by
  unfold readPeriod
  split
  · next hlen =>
    have hread := h (BitVec.ofNat 32 (u32 bs 0)) (BitVec.ofNat 32 (u32 bs 4))
    rwa [periodBytes_of_length hlen] at hread
  · exact .wrongLength

theorem readVx_decodes {k : Pattern → Word32 → Word32 → Instr}
    (h : ∀ d e p, Decodes (op :: (d.bytes ++ periodBytes e p)) (.ok (k d e p))) :
    Decodes (op :: bs) (readVx k bs) := by
  unfold readVx
  split
  · exact readPeriod_decodes (h ⟨_, _, _, _, _, _, _, _⟩)
  · exact .wrongLength

theorem readIndex_decodes {k : Half → Instr} (h : ∀ i, Decodes (op :: le16 i.toNat) (.ok (k i))) :
    Decodes (op :: bs) (readIndex k bs) := by
  unfold readIndex
  split
  · next hlen =>
    have hread := h (BitVec.ofNat 16 (u16 bs 0))
    rwa [le16_of_length hlen] at hread
  · exact .wrongLength

theorem readWord3_decodes {k : Word24 → Instr} (h : ∀ w, Decodes (op :: le24 w.toNat) (.ok (k w))) :
    Decodes (op :: bs) (readWord3 k bs) := by
  unfold readWord3
  split
  · next hlen =>
    have hread := h (BitVec.ofNat 24 (u24 bs 0))
    rwa [le24_of_length hlen] at hread
  · exact .wrongLength

end Readers

/-- An op byte is the literal its number is. -/
theorem eq_ofNat_of_toNat {op : Byte} {n : Nat} (h : op.toNat = n) : op = BitVec.ofNat 8 n := by
  rw [← h, BitVec.ofNat_toNat, BitVec.setWidth_eq]

/-- The decoder's answer to any request, by the format of its op. -/
theorem decode_decodes (r : List Byte) : Decodes r (decode r) := by
  unfold decode
  split
  · exact .wrongLength
  · next op bs =>
    split
    -- the last arm of `decode`: no arm's op value
    case h_51 =>
      refine .noFormat ?_
      simp only [formatOf]
    -- the other arms, each with the reader of its op's format
    all_goals
      rename_i hop
      obtain rfl := eq_ofNat_of_toNat hop
    any_goals exact readNone_decodes (.request rfl rfl)
    any_goals exact readReg8_decodes (fun _ => .request rfl rfl)
    any_goals exact readTwo_decodes (fun _ _ => .request rfl rfl)
    any_goals exact readThree_decodes (fun _ _ _ => .request rfl rfl)
    any_goals exact readFour_decodes (fun _ _ _ _ => .request rfl rfl)
    any_goals exact readMsg_decodes (fun _ h => .request rfl h)
    any_goals exact readPattern_decodes (fun _ => .request rfl rfl)
    any_goals exact readPeriod_decodes (pre := []) (fun _ _ => .request rfl rfl)
    any_goals exact readVx_decodes (fun _ _ _ => .request rfl rfl)
    any_goals exact readIndex_decodes (fun _ => .request rfl rfl)
    any_goals exact readWord3_decodes (fun _ => .request rfl rfl)

/-! ### The obligations of the encoding -/

/-- Settles O1: the reader of each format takes the operand bytes the encoder writes. -/
theorem decodeOfEncode : Obligations.DecodeOfEncode := by
  intro i hwf
  cases i with
  | msgWrite m | msgTransact m => exact readMsg_bytes _ m hwf
  | setPatPeriod exposure period | seqSetTiming exposure period => exact readPeriod_periodBytes _ exposure period
  | vxAdd p exposure period => exact readPeriod_periodBytes (.vxAdd p) exposure period
  | seqRead index | vxRead index => exact readIndex_le16 _ index
  | patUnpack word => exact readWord3_le24 _ word
  | _ => rfl

/-- Settles O2: the decoder's only answer that is an instruction is `Decodes.request`. -/
theorem encodeOfDecode : Obligations.EncodeOfDecode := by
  intro r i hdec
  have h := decode_decodes r
  rw [hdec] at h
  cases h with
  | request hr hi => exact ⟨hr, hi⟩

/-- Settles O3: an envelope's length is its law's; every other request has as many bytes as its constructor's equation writes. -/
theorem requestLengths : Obligations.RequestLengths := by
  refine ⟨by decide, fun i => ?_⟩
  cases i with
  | msgWrite m => exact Laws.EncodedLength.msgWrite m
  | msgTransact m => exact Laws.EncodedLength.msgTransact m
  | _ => exact fun _ => ⟨rfl, rfl⟩

/-- Settles O4: each request is the encoding of the instruction it stands for. -/
theorem sampleRequestsDecode : Obligations.SampleRequestsDecode :=
  ⟨decodeOfEncode (.msgWrite ⟨0x02, 0x07, [0xAA, 0xBB]⟩) rfl, decodeOfEncode .getDisplayMode rfl,
    decodeOfEncode (.setLedEnable 1 0 1 0) rfl, decodeOfEncode (.setPatPeriod 8769 9000) rfl,
    decodeOfEncode (.seqAdd ⟨3, 24, 8, 7, 1, 0, 1, 0⟩) rfl, decodeOfEncode (.vxAdd ⟨0, 25, 1, 7, 0, 0, 0, 0⟩ 1000 2000) rfl,
    decodeOfEncode (.vxRead 0x1234) rfl, decodeOfEncode (.patUnpack 0x123456) rfl, decodeOfEncode .lutUpload rfl⟩

/-- A request of a defined op and another length than its format requires is a wrong length: an instruction it decoded to would
have the required length, being its encoding. -/
theorem decode_of_length_ne {op : Byte} {bs : List Byte} (hop : ¬ Machine.undefinedOp op)
    (hlen : (op :: bs).length ≠ requestLength (op :: bs)) : decode (op :: bs) = .error .length := by
  have h := decode_decodes (op :: bs)
  generalize decode (op :: bs) = answer at h
  cases h with
  | noFormat hf => exact absurd ((formatOf_eq_none_iff op).1 hf) hop
  | wrongLength => rfl
  | request hr hi =>
    obtain ⟨-, hrequired⟩ := requestLengths.2 _ hi
    rw [hr] at hrequired
    exact absurd hrequired hlen

end Sys2Proof

namespace Sys2Proof.Machine

/-! ### Refused requests (R77, R76, R183) -/

/-- A step that takes a request the decoder refuses raises the refusal's cause and does nothing else. -/
theorem step_illegalRequest {s : State} {r : List Byte} {rest : List (List Byte)} {e : DecodeError}
    (hreq : s.requests = r :: rest) (hdec : decode r = .error e) :
    ∃ t, step s = .next t ∧ IllegalRequest s t rest (Cause.code (decodeCause e)) := by
  refine ⟨_, step_of_decode_error hreq hdec, ?_⟩
  obtain ⟨-, hstores, htraffic, hidle⟩ := raise_answered { s with requests := rest } (decodeCause e) []
  have hstatus : Status.code (Cause.status (decodeCause e)) = 6 := by cases e <;> rfl
  exact ⟨rfl, by rw [← hstatus]; rfl, hstatus, rfl, rfl, hstores, htraffic, hidle⟩

/-- Settles O7: no format has an op value of R77's list. -/
theorem undefinedOpRefused : Obligations.UndefinedOpRefused :=
  fun _ op operands _ hreq hop =>
    step_illegalRequest hreq (decode_formatOf_none op operands ((formatOf_eq_none_iff op).2 hop))

/-- Settles O8: both kinds of request are a wrong length to the decoder. -/
theorem wrongLengthRefused : Obligations.WrongLengthRefused := by
  intro s r rest hreq hr
  have hdec : decode r = .error .length := by
    obtain rfl | ⟨op, operands, rfl, hop, hlen⟩ := hr
    · rfl
    · exact decode_of_length_ne hop hlen
  exact step_illegalRequest hreq hdec

/-! ### Outbound packets (R56, R82) -/

/-- No packet is sent beyond those that hold the stream: together they reach past its end by less than one packet. -/
theorem packetCount_mul_lt (cfg : Params) (n : Nat) (hp : 0 < cfg.p) : packetCount cfg n * cfg.p < n + cfg.p := by
  have h : packetCount cfg n * cfg.p ≤ n + cfg.p - 1 := Nat.div_mul_le_self (n + cfg.p - 1) cfg.p
  omega

theorem padTo_length {bs : List Byte} {n : Nat} (h : bs.length ≤ n) (b : Byte) : (padTo bs n b).length = n := by
  rw [padTo, List.length_append, List.length_replicate, Nat.add_sub_cancel' h]

/-- A byte of a padded string: its own, or the fill. -/
theorem padTo_getElem? {bs : List Byte} {n j : Nat} (hj : j < n) (b : Byte) :
    (padTo bs n b)[j]? = some (if j < bs.length then bs.getD j 0 else b) := by
  rw [padTo]
  split
  · next hin => rw [List.getElem?_append_left hin, List.getD_eq_getElem _ _ hin, List.getElem?_eq_getElem hin]
  · next hout =>
    rw [List.getElem?_append_right (by omega), List.getElem?_replicate, if_pos (by omega)]

/-- A packet has `LEAD_OUT + P` bytes, whatever is left of the stream (R56). -/
theorem packet_length (cfg : Params) (stream : List Byte) (k : Nat) : (packet cfg stream k).length = 1 + cfg.p := by
  rw [packet, List.length_cons, padTo_length (List.length_take_le _ _), Nat.add_comm]

/-- A byte of a packet after its leading byte: the stream's, or PAD_BYTE past the stream's end. -/
theorem packet_getElem? (cfg : Params) (stream : List Byte) (k : Nat) {j : Nat} (hj : j < cfg.p) :
    (packet cfg stream k)[1 + j]?
      = some (if k * cfg.p + j < stream.length then stream.getD (k * cfg.p + j) 0 else cfg.padByte) := by
  have hin : j < ((stream.drop (k * cfg.p)).take cfg.p).length ↔ k * cfg.p + j < stream.length := by
    rw [List.length_take, List.length_drop]
    omega
  have hbyte : ((stream.drop (k * cfg.p)).take cfg.p).getD j 0 = stream.getD (k * cfg.p + j) 0 := by
    simp only [List.getD_eq_getElem?_getD, List.getElem?_take_of_lt hj, List.getElem?_drop]
  rw [packet, Nat.add_comm 1 j, List.getElem?_cons_succ, padTo_getElem? hj, hbyte]
  simp only [hin]

theorem packets_getElem? (cfg : Params) (stream : List Byte) {k : Nat} (hk : k < (packets cfg stream).length) :
    (packets cfg stream)[k]? = some (packet cfg stream k) := by
  rw [packets_length] at hk
  simp [packets, hk]

/-- Settles O20: the bounds are `ceil`'s, and each packet is its leading byte and a padded chunk. -/
theorem outboundPacketShape : Obligations.OutboundPacketShape := by
  intro cfg stream hp
  refine ⟨?_, fun k hk => ?_⟩
  · rw [packets_length]
    exact ⟨le_packetCount_mul cfg _ (by omega), packetCount_mul_lt cfg _ (by omega)⟩
  · exact ⟨_, packets_getElem? cfg stream hk, packet_length cfg stream k, rfl, fun _ hj => packet_getElem? cfg stream k hj⟩

/-! ### The flag byte (R53) -/

theorem Rw.bit_ofBit (b : Bool) : (Rw.ofBit b).bit = b := by cases b <;> rfl

/-- The fields of a byte joined in the order of LITERAL. -/
theorem literal_fields (dest : BitVec 3) (error reply rw : Bool) :
    let b : BitVec (3 + 2 + 1 + 1 + 1) := dest ++ 0#2 ++ BitVec.ofBool error ++ BitVec.ofBool reply ++ BitVec.ofBool rw
    b.getLsbD 0 = rw ∧ b.getLsbD 1 = reply ∧ b.getLsbD 2 = error ∧ b.extractLsb' 3 2 = 0#2 ∧ b.extractLsb' 5 3 = dest := by
  simp [BitVec.getElem_append, BitVec.extractLsb'_append_eq_ite, -Nat.reduceAdd]

/-- The fields of a byte joined in the order of MSB0. -/
theorem msb0_fields (dest : BitVec 3) (error reply rw : Bool) :
    let b : BitVec (1 + 1 + 1 + 2 + 3) := BitVec.ofBool rw ++ BitVec.ofBool reply ++ BitVec.ofBool error ++ 0#2 ++ dest
    b.getLsbD 7 = rw ∧ b.getLsbD 6 = reply ∧ b.getLsbD 5 = error ∧ b.extractLsb' 3 2 = 0#2 ∧ b.extractLsb' 0 3 = dest := by
  simp [BitVec.getElem_append, BitVec.extractLsb'_append_eq_ite, -Nat.reduceAdd]

/-- Settles O18: the encoder joins the fields in the order of its layout, and the decoder takes each from the place named. -/
theorem flagBytePlaces : Obligations.FlagBytePlaces := by
  refine ⟨fun f => ?_, fun b => ⟨Rw.bit_ofBit _, rfl, rfl, rfl, Rw.bit_ofBit _, rfl, rfl, rfl⟩⟩
  obtain ⟨hrw, hreply, herror, hreserved, hdest⟩ := literal_fields f.dest f.error f.reply f.rw.bit
  exact ⟨hrw, hreply, herror, hreserved, hdest, msb0_fields f.dest f.error f.reply f.rw.bit⟩

/-! ### The pseudo-instructions (R79) -/

/-- A message with no flag raised has the flag byte 0 under either layout (R53). -/
theorem encodeFlags_write (layout : FlagLayout) : encodeFlags layout ⟨.write, false, false, 0⟩ = 0 := by
  cases layout <;> rfl

/-- The MSG.SEND line, its flag byte still by the layout. -/
theorem assemble_msgSend (cfg : Params) : assemble cfg "MSG.SEND rw=W, data=01 0B"
    = some [.msgWrite ⟨encodeFlags cfg.flagLayout ⟨.write, false, false, 0⟩, 0x00, [0x01, 0x0B]⟩] := rfl

/-- Settles O60: each line evaluates to its requests, whatever the parameters. -/
theorem pseudoInstructions : Obligations.PseudoInstructions := by
  intro cfg
  refine ⟨rfl, rfl, rfl, rfl, rfl, rfl, rfl, rfl, ?_, rfl⟩
  rw [assemble_msgSend, encodeFlags_write]

end Sys2Proof.Machine

/-! ## The message framer's statements (40_framer.md)

`Laws/Framer.lean` says what `Write`, `Read` and `Transact` do when the adapter's answers are given. Here is the converse: a
`Write` or a `Read` that ended with a result had such answers (`writeMessage_ok`, `readMessage_ok`). An operation's response then
follows from its run once, for a result and for a failure (`finishWith_ok_ended`, `finishWith_error_ended`). -/

namespace Sys2Proof.Machine

/-! ### The end of an operation of the framer -/

section Ends

variable {α : Type} {s u : State} {r : Run α}

/-- An operation whose run was transport and gave a result: the response carries it, and the run's events and answers stand. -/
theorem finishWith_ok_ended {a : α} (f : α → List Byte) (htraffic : Traffic s r.2) (hrun : r = (.ok a, u)) :
    Answered s (State.finishWith r f) (0 :: 0 :: f a) ∧ StoresKept s (State.finishWith r f) ∧
      (State.finishWith r f).mboxStep = s.mboxStep ∧ (State.finishWith r f).trace = u.trace ∧
      (State.finishWith r f).txAnswers = u.txAnswers ∧ (State.finishWith r f).rxAnswers = u.rxAnswers := by
  subst hrun
  exact ⟨⟨congrArg (· ++ _) htraffic.responses, rfl, htraffic.cfg, htraffic.requests⟩, htraffic.stores, htraffic.mboxStep,
    rfl, rfl, rfl⟩

/-- An operation whose run was transport and raised a cause: the response is the cause's codes, and MBOX_STEP is idle (R184). -/
theorem finishWith_error_ended {c : Cause} (f : α → List Byte) (htraffic : Traffic s r.2) (hrun : r = (.error c, u)) :
    Answered s (State.finishWith r f) (failureCodes c) ∧ StoresKept s (State.finishWith r f) ∧
      (State.finishWith r f).mboxStep = .idle ∧ (State.finishWith r f).trace = u.trace ∧
      (State.finishWith r f).txAnswers = u.txAnswers ∧ (State.finishWith r f).rxAnswers = u.rxAnswers := by
  subst hrun
  exact ⟨⟨congrArg (· ++ _) htraffic.responses, rfl, htraffic.cfg, htraffic.requests⟩, htraffic.stores, rfl, rfl, rfl, rfl⟩

end Ends

/-- The message an envelope stands for is sent as the envelope's stream (R54, R81). -/
theorem envEncode_envelopeMessage (cfg : Params) (m : Envelope) :
    envEncode cfg (envelopeMessage cfg.flagLayout m) = messageStream cfg m := rfl

/-! ### MSG_TRANSACT (R85, R86) -/

/-- MSG_TRANSACT of an attempt that fails: the response is the cause's codes, after exactly the attempt's events and answers. -/
theorem exec_msgTransact_fails {s : State} {m : Envelope} {c : Cause} {tx txRest : List TxAnswer} {rx rxRest : List RxAnswer}
    {events : List Event} (hp : 4 ≤ s.cfg.p) (hreply : (decodeFlags s.cfg.flagLayout m.flags).reply = true)
    (hlen : m.payload.length ≤ 512) (h : Attempt s.cfg (messageStream s.cfg m) (.error c) tx rx events)
    (htx : s.txAnswers = tx ++ txRest) (hrx : s.rxAnswers = rx ++ rxRest) :
    ∃ t, exec (.msgTransact m) s = .next t ∧ EndedIdle s t (failureCodes c) events txRest rxRest := by
  obtain ⟨b, hrun⟩ := transact_attempt (envelopeMessage s.cfg.flagLayout m) s _ tx txRest rx rxRest events hp hreply hlen h htx hrx
  exact ⟨_, rfl, finishWith_error_ended _ (transact_traffic _ s) hrun⟩

/-- The causes a transaction can raise. -/
theorem Attempt.cause_mem {cfg : Params} {stream : List Byte} {c : Cause} {tx : List TxAnswer} {rx : List RxAnswer}
    {events : List Event} (h : Attempt cfg stream (.error c) tx rx events) :
    c ∈ [Cause.teWrite, .teRead, .peNack, .peEmpty, .peLength, .toRead] := by
  cases h with
  | receiveFails _ _ _ _ _ ha _ _ => cases ha <;> decide
  | writeFails | lengthRefused | nack | empty => decide

/-- Settles O31: the two checks are two of the ways an attempt fails. -/
theorem replyChecks : Obligations.ReplyChecks := by
  intro s m x txRest rxRest hp hreply hlen
  refine ⟨fun haccepts hcarries htx hrx => ⟨fun herr => ?_, fun herr hread hempty => ?_⟩, ?_⟩
  · obtain ⟨t, hexec, hanswered, hstores, hidle, htrace, -⟩ :=
      exec_msgTransact_fails hp hreply hlen (.nack x haccepts hcarries herr) htx hrx
    exact ⟨t, hexec, hanswered, hstores, hidle, htrace⟩
  · obtain ⟨t, hexec, hanswered, hstores, hidle, htrace, -⟩ :=
      exec_msgTransact_fails hp hreply hlen (.empty x haccepts hcarries herr hread hempty) htx hrx
    exact ⟨t, hexec, hanswered, hstores, hidle, htrace⟩
  · intro c tx rx events hattempt htx hrx
    exact ⟨List.mem_map_of_mem (f := fun c => (c, failureCodes c)) hattempt.cause_mem,
      exec_msgTransact_fails hp hreply hlen hattempt htx hrx⟩

/-- Settles O29: the run is `Transact`'s of an exchange that goes through. -/
theorem msgTransactCompletes : Obligations.MsgTransactCompletes := by
  intro s m x txRest rxRest hp hreply hlen hx htx hrx
  have hrun := transact_goesThrough (envelopeMessage s.cfg.flagLayout m) s x txRest rxRest hp hreply hlen hx htx hrx
  obtain ⟨hanswered, hstores, hmbox, htrace, htxRest, hrxRest⟩ :=
    finishWith_ok_ended (fun pl => le16 pl.length ++ pl) (transact_traffic _ s) hrun
  exact ⟨_, rfl, ⟨hanswered, hstores, hmbox, htrace⟩, htxRest, hrxRest⟩

/-- A run refused before any event: the cause's codes and nothing else. -/
theorem finishWith_refused {α : Type} {s : State} {r : Run α} {c : Cause} (f : α → List Byte) (hrun : r = (.error c, s)) :
    AnsweredQuietly s (State.finishWith r f) (failureCodes c) ∧ (State.finishWith r f).mboxStep = .idle := by
  rw [finishWith_error f hrun]
  obtain ⟨hanswered, hstores, hquiet, hidle⟩ := raise_answered s c []
  exact ⟨⟨hanswered, hstores, hquiet⟩, hidle⟩

/-- `Write` refuses a payload above 512 bytes before any event (R83). -/
theorem writeMessage_tooLong {m : Message} (s : State) (hlen : 512 < m.payload.length) :
    writeMessage m s = (.error .pvPayloadLen, s) := if_pos hlen

/-- `Transact` refuses a payload above 512 bytes as its `Write` does (R85). -/
theorem transact_tooLong {m : Message} (s : State) (hreply : m.flags.reply = true) (hlen : 512 < m.payload.length) :
    transact m s = (.error .pvPayloadLen, s) := by
  rw [transact, if_pos hreply, writeMessage_tooLong s hlen]

/-- `Transact` refuses a message that requests no reply, before it looks at the payload (R85, R186). -/
theorem transact_noReply {m : Message} (s : State) (hreply : m.flags.reply = false) :
    transact m s = (.error .pvNoReply, s) := if_neg (ne_true_of_eq_false hreply)

/-- Settles O23: both operations end in `Write`'s first check. -/
theorem longPayloadRefused : Obligations.LongPayloadRefused := fun s m hlen =>
  ⟨⟨_, rfl, finishWith_refused _ (writeMessage_tooLong (m := envelopeMessage s.cfg.flagLayout m) s hlen)⟩,
    fun hreply => ⟨_, rfl, finishWith_refused _ (transact_tooLong (m := envelopeMessage s.cfg.flagLayout m) s hreply hlen)⟩⟩

/-- Settles O30. -/
theorem transactNeedsReply : Obligations.TransactNeedsReply := fun s m hreply =>
  ⟨_, rfl, finishWith_refused _ (transact_noReply (m := envelopeMessage s.cfg.flagLayout m) s hreply)⟩

/-! ### MSG_WRITE (R83) -/

/-- Settles O21: the run is `Write`'s with every packet accepted. -/
theorem msgWriteCompletes : Obligations.MsgWriteCompletes := by
  intro s m counts txRest hlen haccepts htx
  have hrun := writeMessage_accepted (envelopeMessage s.cfg.flagLayout m) s counts txRest hlen haccepts htx
  exact ⟨_, rfl, finishWith_ok_ended le32 (writeMessage_traffic _ s) hrun⟩

/-- Settles O22: the run is `Write`'s up to the first refused packet. -/
theorem msgWriteFirstFailureStops : Obligations.MsgWriteFirstFailureStops := by
  intro s m counts txRest hlen hfew htyped htx
  have hrun := writeMessage_failed (envelopeMessage s.cfg.flagLayout m) s counts txRest hlen
    (by rwa [envEncode_length]) htyped htx
  rw [envEncode_envelopeMessage, ← List.append_assoc] at hrun
  exact ⟨_, rfl, finishWith_error_ended le32 (writeMessage_traffic _ s) hrun⟩

/-! ### MSG_READ (R84, R86) -/

/-- Settles O24: the run is `Read`'s of the reply the buffers carry. -/
theorem msgReadCompletes : Obligations.MsgReadCompletes := by
  intro s bufs flags seq payload rxRest hp hcarries hrx
  have hrun := readMessage_carries s bufs flags seq payload rxRest hp hcarries hrx
  exact ⟨_, rfl, finishWith_ok_ended _ (readMessage_traffic s) hrun⟩

/-- MSG_READ when its `Read` raises a cause: the events and the answers taken are `Read`'s. -/
theorem exec_msgRead_error {s u : State} {c : Cause} (hrun : readMessage s = (.error c, u)) :
    ∃ t, exec .msgRead s = .next t ∧ Answered s t (failureCodes c) ∧ StoresKept s t ∧ t.mboxStep = .idle ∧
      t.trace = u.trace ∧ t.rxAnswers = u.rxAnswers ∧ t.txAnswers = u.txAnswers := by
  refine ⟨_, rfl, ?_⟩
  obtain ⟨hanswered, hstores, hidle, htrace, htx, hrx⟩ := finishWith_error_ended _ (readMessage_traffic s) hrun
  exact ⟨hanswered, hstores, hidle, htrace, hrx, htx⟩

/-- MSG_READ when a receive fails, at the first packet or at a continuation packet. -/
theorem exec_msgRead_receiveFails {s : State} {bufs : List (List Byte)} {rxRest : List RxAnswer} {a : RxAnswer} {c : Cause}
    (hp : 4 ≤ s.cfg.p) (ha : ReceiveFailure a c) (htyped : ∀ b ∈ bufs, b.length = s.cfg.inLead.val + s.cfg.p)
    (hfew : bufs = [] ∨ (u16 (bufs.flatMap (streamBytes s.cfg)) 2 ≤ 512 ∧
      bufs.length < packetCount s.cfg (4 + u16 (bufs.flatMap (streamBytes s.cfg)) 2)))
    (hrx : s.rxAnswers = bufs.map RxAnswer.data ++ a :: rxRest) :
    ∃ t, exec .msgRead s = .next t ∧ Answered s t (failureCodes c) ∧ StoresKept s t ∧ t.mboxStep = .idle ∧
      t.trace = s.trace ++ receivedEvents bufs ++ [.rx a, .close] ∧ t.rxAnswers = rxRest ∧ t.txAnswers = s.txAnswers := by
  obtain ⟨b, hrun⟩ := readMessage_failed s bufs a c rxRest hp ha htyped hfew hrx
  rw [← List.append_assoc] at hrun
  exact exec_msgRead_error hrun

/-- Settles O25: both failures are `RxOrFail`'s, each with its cause. -/
theorem receiveFailureCloses : Obligations.ReceiveFailureCloses := fun _ _ _ hp htyped hfew =>
  ⟨exec_msgRead_receiveFails hp .timeout htyped hfew, exec_msgRead_receiveFails hp .error htyped hfew⟩

/-- Settles O26: the run is `Read`'s up to the length check. -/
theorem replyLengthRefused : Obligations.ReplyLengthRefused := fun s buf rxRest _ htyped hlong hrx =>
  exec_msgRead_error (readMessage_lengthRefused s buf rxRest htyped hlong hrx)

/-! ### The flag round trip (R90) -/

theorem Rw.ofBit_bit (rw : Rw) : Rw.ofBit rw.bit = rw := by cases rw <;> rfl

/-- The decoder takes every field from the place the encoder put it in. -/
theorem decodeFlags_encodeFlags (layout : FlagLayout) (f : FlagFields) : decodeFlags layout (encodeFlags layout f) = f := by
  obtain ⟨hrw, hreply, herror, -, hdest, hrw', hreply', herror', -, hdest'⟩ := flagBytePlaces.1 f
  cases layout with
  | literal => rw [decodeFlags, hrw, hreply, herror, hdest, Rw.ofBit_bit]
  | msb0 => rw [decodeFlags, hrw', hreply', herror', hdest', Rw.ofBit_bit]

/-- What is sent has its reserved bits 0. -/
theorem encodeFlags_reserved (layout : FlagLayout) (f : FlagFields) : (encodeFlags layout f).extractLsb' 3 2 = 0#2 := by
  obtain ⟨-, -, -, hliteral, -, -, -, -, hmsb0, -⟩ := flagBytePlaces.1 f
  cases layout with
  | literal => exact hliteral
  | msb0 => exact hmsb0

/-- A byte with its reserved bits 0 holds nothing but its fields, over the 256 bytes. -/
theorem encodeFlags_decodeFlags (layout : FlagLayout) :
    ∀ b : Byte, b.extractLsb' 3 2 = 0#2 → encodeFlags layout (decodeFlags layout b) = b := by
  cases layout <;> decide +kernel

/-- Settles O19. -/
theorem flagRoundTrip : Obligations.FlagRoundTrip := fun layout =>
  ⟨decodeFlags_encodeFlags layout,
    fun b => ⟨fun h => h ▸ encodeFlags_reserved layout _, encodeFlags_decodeFlags layout b⟩⟩

/-! ### What a `Write` that went through sent (R82, R83) -/

/-- Taking an answer to a transmit: it has the typing of R18, and the trace does not change. -/
theorem nextTx_spec (s : State) : (∃ a, s.nextTx.1 = typedTx s.cfg a) ∧ s.nextTx.2.trace = s.trace := by
  unfold State.nextTx
  split <;> exact ⟨⟨_, rfl⟩, rfl⟩

/-- A transmit that gave a count: the count is within its typing, and one event is recorded with it. -/
theorem txPacket_wrote_inv {s t : State} {buf : List Byte} {n : Nat} (h : s.txPacket buf = (.wrote n, t)) :
    n ≤ Config.leadOut + s.cfg.p ∧ t.cfg = s.cfg ∧ t.trace = s.trace ++ [.tx buf (.wrote n)] := by
  have hcfg := (txPacket_traffic s buf).cfg
  obtain ⟨⟨a, ha⟩, htrace⟩ := nextTx_spec s
  rw [h] at hcfg
  rw [txPacket_spec, Prod.mk.injEq] at h
  obtain ⟨hn, rfl⟩ := h
  refine ⟨typedTx_le s.cfg a n (ha ▸ hn), hcfg, ?_⟩
  rw [State.record_trace, hn, htrace]

/-- Packets that all went out: each was given a count, and the counts are what was added to the total. -/
theorem sendPackets_ok {bs : List (List Byte)} {total total' : Nat} {s t : State}
    (h : sendPackets bs total s = (.ok total', t)) :
    ∃ counts, counts.length = bs.length ∧ (∀ n ∈ counts, n ≤ Config.leadOut + s.cfg.p) ∧ total' = total + counts.sum ∧
      t.trace = s.trace ++ List.zipWith (fun buf n => Event.tx buf (.wrote n)) bs counts := by
  induction bs generalizing total s with
  | nil =>
    simp only [sendPackets, Prod.mk.injEq, Except.ok.injEq] at h
    obtain ⟨rfl, rfl⟩ := h
    exact ⟨[], by simp⟩
  | cons b bs ih =>
    rw [sendPackets] at h
    split at h
    · cases h
    · next n s' hsend =>
      obtain ⟨hn, hcfg, htrace⟩ := txPacket_wrote_inv hsend
      obtain ⟨counts, hlen, htyped, hsum, htrace'⟩ := ih h
      rw [hcfg] at htyped
      refine ⟨n :: counts, by simp [hlen], by simpa using ⟨hn, htyped⟩, by rw [hsum, List.sum_cons, Nat.add_assoc], ?_⟩
      rw [htrace', htrace, List.zipWith_cons_cons, List.append_assoc, List.singleton_append]

/-- A `Write` that went through: the adapter accepted the message's stream, and its packets are the only events. -/
theorem writeMessage_ok {m : Message} {s t : State} {total : Nat} (h : writeMessage m s = (.ok total, t)) :
    ∃ counts, Accepts s.cfg (envEncode s.cfg m) counts ∧ total = counts.sum ∧
      t.trace = s.trace ++ sentEvents s.cfg (envEncode s.cfg m) counts := by
  rw [writeMessage] at h
  split at h
  · cases h
  · obtain ⟨counts, hlen, htyped, hsum, htrace⟩ := sendPackets_ok h
    exact ⟨counts, ⟨by rw [hlen, packets_length], htyped⟩, by rw [hsum, Nat.zero_add], htrace⟩

/-- The buffers offered with a count each are the packets. -/
theorem txBuffers_zipWith {bs : List (List Byte)} {counts : List Nat} (hlen : counts.length = bs.length) :
    txBuffers (List.zipWith (fun buf n => Event.tx buf (.wrote n)) bs counts) = bs := by
  induction bs generalizing counts with
  | nil => simp [txBuffers]
  | cons b bs ih =>
    cases counts with
    | nil => cases hlen
    | cons n counts => rw [List.zipWith_cons_cons, txBuffers, ih (Nat.succ.inj hlen)]

section Accepted

variable {cfg : Params} {stream : List Byte} {counts : List Nat}

theorem txBuffers_sentEvents (h : Accepts cfg stream counts) : txBuffers (sentEvents cfg stream counts) = packets cfg stream :=
  txBuffers_zipWith (by rw [h.1, packets_length])

theorem sentEvents_length (h : Accepts cfg stream counts) :
    (sentEvents cfg stream counts).length = packetCount cfg stream.length := by
  rw [sentEvents, List.length_zipWith, packets_length, h.1, Nat.min_self]

/-- Every count stands in an event. -/
theorem exists_mem_sentEvents (h : Accepts cfg stream counts) {n : Nat} (hn : n ∈ counts) :
    ∃ buf, Event.tx buf (.wrote n) ∈ sentEvents cfg stream counts := by
  obtain ⟨k, hk, rfl⟩ := List.getElem_of_mem hn
  have hk' : k < (sentEvents cfg stream counts).length := by rw [sentEvents_length h, ← h.1]; exact hk
  exact ⟨_, List.mem_of_getElem (h := hk') List.getElem_zipWith⟩

/-- When every count is the same, their sum is by the number of packets. -/
theorem sum_counts_of_uniform (h : Accepts cfg stream counts) {c : Nat}
    (hall : ∀ buf a, Event.tx buf a ∈ sentEvents cfg stream counts → a = .wrote c) :
    counts.sum = packetCount cfg stream.length * c := by
  have hcounts : ∀ n ∈ counts, n = c := by
    intro n hn
    obtain ⟨buf, hmem⟩ := exists_mem_sentEvents h hn
    exact TxAnswer.wrote.inj (hall buf _ hmem)
  rw [List.eq_replicate_of_mem hcounts, List.sum_replicate, h.1, smul_eq_mul]

end Accepted

/-! ### What a `Read` that went through received (R84) -/

/-- Taking an answer to a receive: it has the typing of R19, and neither the trace nor RXBUF changes. -/
theorem nextRx_spec (s : State) :
    (∃ a, s.nextRx.1 = typedRx s.cfg a) ∧ s.nextRx.2.trace = s.trace ∧ s.nextRx.2.rxbuf = s.rxbuf := by
  unfold State.nextRx
  split <;> exact ⟨⟨_, rfl⟩, rfl, rfl⟩

/-- A receive that gave a buffer: the buffer has its length, and one event is recorded with it. -/
theorem rxOrFail_ok {s t : State} {buf : List Byte} (h : rxOrFail s = (.ok buf, t)) :
    buf.length = s.cfg.inLead.val + s.cfg.p ∧ t.cfg = s.cfg ∧ t.rxbuf = s.rxbuf ∧
      t.trace = s.trace ++ [.rx (.data buf)] := by
  have hcfg := (rxOrFail_traffic s).cfg
  rw [h] at hcfg
  rw [rxOrFail, rxPacket_spec] at h
  split at h
  · next buf' s' hrx =>
    rw [Prod.mk.injEq] at hrx h
    obtain ⟨hdata, rfl⟩ := hrx
    obtain ⟨hbuf, rfl⟩ := h
    obtain rfl := Except.ok.inj hbuf
    obtain ⟨⟨a, ha⟩, htrace, hrxbuf⟩ := nextRx_spec s
    refine ⟨typedRx_length s.cfg a buf' (ha ▸ hdata), hcfg, hrxbuf, ?_⟩
    rw [State.record_trace, hdata, htrace]
  · cases h
  · cases h

/-- Continuation packets that all came in: as many buffers as asked for, each joined to the stream. -/
theorem readContinuation_ok {n : Nat} {s t : State} (h : readContinuation n s = (.ok (), t)) :
    ∃ bufs, bufs.length = n ∧ t.cfg = s.cfg ∧ t.rxbuf = s.rxbuf ++ bufs.flatMap (streamBytes s.cfg) ∧
      t.trace = s.trace ++ receivedEvents bufs := by
  induction n generalizing s with
  | zero =>
    obtain ⟨-, rfl⟩ := Prod.mk.inj h
    exact ⟨[], by simp [receivedEvents]⟩
  | succ n ih =>
    rw [readContinuation] at h
    split at h
    · cases h
    · next buf s' hrx =>
      obtain ⟨-, hcfg, hbuf, htrace⟩ := rxOrFail_ok hrx
      obtain ⟨bufs, hlen, hcfg', hbuf', htrace'⟩ := ih h
      refine ⟨buf :: bufs, by rw [List.length_cons, hlen], hcfg'.trans hcfg, ?_, ?_⟩
      · simp only [hbuf', hbuf, hcfg, List.flatMap_cons, List.append_assoc]
      · simp only [htrace', htrace, receivedEvents, List.map_cons, List.append_assoc, List.singleton_append]

/-- A `Read` that went through: the reply is that of the buffers' stream, and exactly as many buffers came as its length needs. -/
theorem readMessage_ok {s t : State} {reply : Reply} (hp : 4 ≤ s.cfg.p) (h : readMessage s = (.ok reply, t)) :
    ∃ bufs, bufs.length = packetCount s.cfg (4 + reply.len) ∧ reply = replyOf s.cfg (bufs.flatMap (streamBytes s.cfg)) ∧
      t.trace = s.trace ++ receivedEvents bufs := by
  rw [readMessage] at h
  split at h
  · cases h
  · next buf s' hrx =>
    obtain ⟨hbuf, hcfg, -, htrace⟩ := rxOrFail_ok hrx
    simp only [hcfg] at h
    split at h
    · cases h
    · split at h
      · cases h
      · next u hcont =>
        obtain ⟨bufs, hlen, hcfg', hbuf', htrace'⟩ := readContinuation_ok hcont
        obtain ⟨hreply, rfl⟩ := Prod.mk.inj h
        simp only at hbuf' hcfg'
        rw [hcfg', hbuf'] at hreply
        obtain rfl := Except.ok.inj hreply
        have hfield : (replyOf s.cfg (streamBytes s.cfg buf ++ bufs.flatMap (streamBytes s.cfg))).len
            = u16 (streamBytes s.cfg buf) 2 := u16_streamBytes s.cfg buf _ hp hbuf
        have hpos := packetCount_pos s.cfg (4 + u16 (streamBytes s.cfg buf) 2) hp (Nat.le_add_right 4 _)
        refine ⟨buf :: bufs, ?_, rfl, ?_⟩
        · rw [List.length_cons, hlen, hfield, Config.hdr, Nat.sub_add_cancel hpos]
        · simp only [htrace', htrace, receivedEvents, List.map_cons, List.append_assoc, List.singleton_append]

theorem rxCount_receivedEvents (bufs : List (List Byte)) : rxCount (receivedEvents bufs) = bufs.length := by
  induction bufs with
  | nil => rfl
  | cons b bufs ih => exact congrArg (· + 1) ih

/-! ### The counts (R91) -/

/-- A message fits one packet when its header and payload do. -/
theorem packetCount_eq_one_iff (cfg : Params) (n : Nat) (hp : 4 ≤ cfg.p) : packetCount cfg (4 + n) = 1 ↔ n ≤ cfg.p - 4 := by
  rw [packetCount, Nat.div_eq_iff (by omega)]
  omega

/-- Settles O28: the events of a `Write` or a `Read` that went through are one for each packet. -/
theorem packetCounts : Obligations.PacketCounts := by
  refine ⟨fun m s t total _ hwrite => ?_, fun s t reply hp hread => ?_, packetCount_eq_one_iff, fun n hn => ?_, by decide⟩
  · obtain ⟨counts, haccepts, rfl, htrace⟩ := writeMessage_ok hwrite
    have hstream : (envEncode s.cfg m).length = 4 + m.payload.length := envEncode_length s.cfg m
    refine ⟨_, htrace, ?_, ?_, fun hall => ?_⟩
    · rw [sentEvents_length haccepts, hstream]
    · rw [txBuffers_sentEvents haccepts, packets_length, hstream]
    · rw [sum_counts_of_uniform haccepts hall, hstream, Nat.add_comm 1]
  · obtain ⟨bufs, hlen, -, htrace⟩ := readMessage_ok hp hread
    exact ⟨_, htrace, by rw [receivedEvents, List.length_map, hlen], by rw [rxCount_receivedEvents, hlen]⟩
  · rw [(packetCount_eq_one_iff defaultParams n (by decide)).2 hn]
    rfl

/-! ### Loopback (R89) -/

/-- Padding a string to one length and what follows it to another is padding the whole. -/
theorem padTo_take_append (xs : List Byte) (a c : Nat) (b : Byte) :
    padTo (xs.take a) a b ++ padTo ((xs.drop a).take c) c b = padTo (xs.take (a + c)) (a + c) b := by
  rw [List.take_add]
  obtain hle | hge := Nat.le_total a xs.length
  · have hfull : (xs.take a).length = a := List.length_take_of_le hle
    simp only [padTo, hfull, Nat.sub_self, List.replicate_zero, List.append_nil, List.length_append, List.append_assoc,
      Nat.add_sub_add_left]
  · rw [List.drop_of_length_le hge, List.take_of_length_le hge]
    simp only [padTo, List.take_nil, List.append_nil, List.nil_append, List.length_nil, List.append_assoc,
      List.replicate_append_replicate, Nat.sub_zero]
    rw [← Nat.sub_add_comm hge]

/-- The padded chunks of a string, joined. -/
theorem flatMap_range_padTo (xs : List Byte) (p n : Nat) (b : Byte) :
    ((List.range n).flatMap fun k => padTo ((xs.drop (k * p)).take p) p b) = padTo (xs.take (n * p)) (n * p) b := by
  induction n with
  | zero => simp [padTo]
  | succ n ih => rw [List.range_succ, List.flatMap_append, ih, List.flatMap_singleton, padTo_take_append, Nat.succ_mul]

/-- A packet sent back as the adapter gives it: without its leading byte when IN_LEAD is 0. -/
def loopedBack (cfg : Params) (pkt : List Byte) : List Byte := pkt.drop (1 - cfg.inLead.val)

theorem loopedBack_length (cfg : Params) {pkt : List Byte} (h : pkt.length = 1 + cfg.p) :
    (loopedBack cfg pkt).length = cfg.inLead.val + cfg.p := by
  have := cfg.inLead.isLt
  rw [loopedBack, List.length_drop, h]
  omega

/-- What comes back of a packet is its chunk, whatever IN_LEAD is. -/
theorem streamBytes_loopedBack_packet (cfg : Params) (stream : List Byte) (k : Nat) :
    streamBytes cfg (loopedBack cfg (packet cfg stream k))
      = padTo ((stream.drop (k * cfg.p)).take cfg.p) cfg.p cfg.padByte := by
  have hlead : 1 - cfg.inLead.val + cfg.inLead.val = 1 := Nat.sub_add_cancel (Nat.le_of_lt_succ cfg.inLead.isLt)
  rw [streamBytes, loopedBack, List.drop_drop, hlead, packet, List.drop_succ_cons, List.drop_zero,
    List.take_of_length_le (padTo_length (List.length_take_le _ _) _).le]

/-- The packets sent back hold the stream, then padding. -/
theorem flatMap_streamBytes_loopedBack (cfg : Params) (stream : List Byte) (hp : 1 ≤ cfg.p) :
    (((packets cfg stream).map (loopedBack cfg)).flatMap (streamBytes cfg)).take stream.length = stream := by
  have hfits := le_packetCount_mul cfg stream.length hp
  simp only [packets, List.flatMap_map, streamBytes_loopedBack_packet]
  rw [flatMap_range_padTo, List.take_of_length_le hfits, padTo, List.take_left]

/-- The packets of a message sent back carry it as a reply. -/
theorem carries_loopedBack (cfg : Params) (m : Message) (hp : 4 ≤ cfg.p) (hlen : m.payload.length ≤ 512) :
    Carries cfg ((packets cfg (envEncode cfg m)).map (loopedBack cfg)) (encodeFlags cfg.flagLayout m.flags) m.seq m.payload := by
  refine ⟨hlen, by rw [List.length_map, packets_length, envEncode_length], ?_, ?_⟩
  · simp only [packets, List.forall_mem_map]
    exact fun k _ => loopedBack_length cfg (packet_length cfg _ k)
  · rw [← envEncode_length cfg m]
    exact flatMap_streamBytes_loopedBack cfg (envEncode cfg m) (by omega)

/-- Settles O27: the packets a `Write` sent carry the message, which `Read` then gives. -/
theorem loopbackReassembly : Obligations.LoopbackReassembly := by
  intro m s t u total sent rest hp hlen hwrite htrace hcfg hrx
  obtain ⟨counts, haccepts, -, htrace'⟩ := writeMessage_ok hwrite
  obtain rfl : sent = sentEvents s.cfg (envEncode s.cfg m) counts := List.append_cancel_left (htrace.symm.trans htrace')
  rw [txBuffers_sentEvents haccepts] at hrx
  have hcarries := carries_loopedBack s.cfg m hp hlen
  rw [← hcfg] at hp hcarries
  rw [readMessage_carries u _ _ _ _ rest hp hcarries (by rw [List.map_map, hrx, hcfg]; rfl), decodeFlags_encodeFlags, hcfg]

end Sys2Proof.Machine

/-! ## The pattern packer, the stores and the period pair (41_pattern.md, 42_codec.md section 12)

The packer's two directions are read as numbers once (`packPattern_toNat`, `unpackPattern_toNat`). Each check of the admission has
its own equation, for any largest index, so that SEQ_ADD and VX_ADD refuse and append by the same lemmas. -/

namespace Sys2Proof.Machine

/-! ### The fields of a word (R96) -/

/-- Each field of an unpacked word, as a number: its own bits, and none of bits 23:20. -/
theorem unpackPattern_toNat (w : Word24) :
    (unpackPattern w).triggerType.toNat = w.toNat % 2 ^ 2 ∧
    (unpackPattern w).patternIndex.toNat = w.toNat / 2 ^ 2 % 2 ^ 6 ∧
    (unpackPattern w).bitDepth.toNat = w.toNat / 2 ^ 8 % 2 ^ 4 ∧
    (unpackPattern w).ledSelect.toNat = w.toNat / 2 ^ 12 % 2 ^ 4 ∧
    (unpackPattern w).invertPattern.toNat = w.toNat / 2 ^ 16 % 2 ∧
    (unpackPattern w).insertBlack.toNat = w.toNat / 2 ^ 17 % 2 ∧
    (unpackPattern w).bufferSwap.toNat = w.toNat / 2 ^ 18 % 2 ∧
    (unpackPattern w).triggerOutPrevious.toNat = w.toNat / 2 ^ 19 % 2 := by
  simp only [unpackPattern, BitVec.toNat_setWidth, BitVec.extractLsb'_toNat, Nat.shiftRight_eq_div_pow]
  refine ⟨?_, ?_, ?_, ?_, ?_, ?_, ?_, ?_⟩ <;> omega

/-- The fields of a word, as the bytes PAT_UNPACK answers with. -/
theorem unpackPattern_bytes (w : Word24) : (unpackPattern w).bytes =
    [BitVec.ofNat 8 (w.toNat % 4), BitVec.ofNat 8 (w.toNat / 4 % 64), BitVec.ofNat 8 (w.toNat / 256 % 16),
      BitVec.ofNat 8 (w.toNat / 4096 % 16), BitVec.ofNat 8 (w.toNat / 65536 % 2), BitVec.ofNat 8 (w.toNat / 131072 % 2),
      BitVec.ofNat 8 (w.toNat / 262144 % 2), BitVec.ofNat 8 (w.toNat / 524288 % 2)] := by
  obtain ⟨ht, hi, hd, hl, hv, hb, hs, ho⟩ := unpackPattern_toNat w
  rw [Pattern.bytes, eq_ofNat_of_toNat ht, eq_ofNat_of_toNat hi, eq_ofNat_of_toNat hd, eq_ofNat_of_toNat hl,
    eq_ofNat_of_toNat hv, eq_ofNat_of_toNat hb, eq_ofNat_of_toNat hs, eq_ofNat_of_toNat ho]
  rfl

/-- What a word unpacks to fits its widths. -/
theorem fitsWidth_unpackPattern (w : Word24) : fitsWidth (unpackPattern w) = true := by
  obtain ⟨ht, hi, hd, hl, hv, hb, hs, ho⟩ := unpackPattern_toNat w
  rw [fitsWidth_iff]
  omega

/-! ### The packer's round trips (R112) -/

/-- Packing an unpacked word keeps its bits 19:0 and clears the others. -/
theorem packPattern_unpackPattern_toNat (w : Word24) : (packPattern (unpackPattern w)).toNat = w.toNat % 2 ^ 20 := by
  obtain ⟨ht, hi, hd, hl, hv, hb, hs, ho⟩ := unpackPattern_toNat w
  rw [packPattern_toNat (fitsWidth_unpackPattern w), ht, hi, hd, hl, hv, hb, hs, ho]
  omega

/-- Descriptors with the same bytes are the same. -/
theorem patternBytes_injective : Function.Injective Pattern.bytes := by
  rintro ⟨⟩ ⟨⟩ h
  simpa [Pattern.bytes] using h

/-- A descriptor that fits its widths is what its packed word unpacks to. -/
theorem unpackPattern_packPattern {p : Pattern} (h : fitsWidth p = true) : unpackPattern (packPattern p) = p := by
  obtain ⟨ht, hi, hd, hl, hv, hb, hs, ho⟩ := (fitsWidth_iff p).1 h
  apply patternBytes_injective
  rw [unpackPattern_bytes, packPattern_toNat h, Pattern.bytes]
  simp only [List.cons.injEq, and_true, ← BitVec.toNat_inj, BitVec.toNat_ofNat]
  refine ⟨?_, ?_, ?_, ?_, ?_, ?_, ?_, ?_⟩ <;> omega

/-- Bits 23:20 of a word are 0 exactly when the word is its 20 low bits. -/
theorem highBits_eq_zero_iff (w : Word24) : w.extractLsb' 20 4 = 0#4 ↔ w.toNat % 2 ^ 20 = w.toNat := by
  rw [← BitVec.toNat_inj, BitVec.extractLsb'_toNat, Nat.shiftRight_eq_div_pow, BitVec.toNat_ofNat]
  omega

/-- Settles O32. -/
theorem packedFieldPlaces : Obligations.PackedFieldPlaces := ⟨fun _ => packPattern_toNat, unpackPattern_toNat⟩

/-- Settles O33: packing an unpacked word loses bits 23:20 and nothing else. -/
theorem packerRoundTrip : Obligations.PackerRoundTrip := by
  refine ⟨fun _ => unpackPattern_packPattern, fun w => ?_⟩
  rw [← BitVec.toNat_inj, packPattern_unpackPattern_toNat, highBits_eq_zero_iff]

/-! ### Admission, check by check (R97, R98) -/

section Admission

variable {maxIndex : Nat} {p : Pattern}

theorem admissionError_triggerType (ht : 3 < p.triggerType.toNat) : admissionError maxIndex p = some .pvFieldRange := if_pos ht

theorem admissionError_patternIndex (ht : p.triggerType.toNat ≤ 3) (hi : maxIndex < p.patternIndex.toNat) :
    admissionError maxIndex p = some .pvPatternIndex := by
  rw [admissionError, if_neg (Nat.not_lt.2 ht), if_pos hi]

theorem admissionError_bitDepth (ht : p.triggerType.toNat ≤ 3) (hi : p.patternIndex.toNat ≤ maxIndex)
    (hd : p.bitDepth.toNat = 0 ∨ 8 < p.bitDepth.toNat) : admissionError maxIndex p = some .pvBitDepth := by
  rw [admissionError, if_neg (Nat.not_lt.2 ht), if_neg (Nat.not_lt.2 hi), if_pos (hd.imp_left Nat.lt_one_iff.2)]

theorem admissionError_ledSelect (ht : p.triggerType.toNat ≤ 3) (hi : p.patternIndex.toNat ≤ maxIndex)
    (hd1 : 1 ≤ p.bitDepth.toNat) (hd8 : p.bitDepth.toNat ≤ 8) (hl : 7 < p.ledSelect.toNat) :
    admissionError maxIndex p = some .pvLedSelect := by
  rw [admissionError, if_neg (Nat.not_lt.2 ht), if_neg (Nat.not_lt.2 hi),
    if_neg (not_or.2 ⟨Nat.not_lt.2 hd1, Nat.not_lt.2 hd8⟩), if_pos hl]

theorem admissionError_flags (ht : p.triggerType.toNat ≤ 3) (hi : p.patternIndex.toNat ≤ maxIndex)
    (hd1 : 1 ≤ p.bitDepth.toNat) (hd8 : p.bitDepth.toNat ≤ 8) (hl : p.ledSelect.toNat ≤ 7)
    (hf : 1 < p.invertPattern.toNat ∨ 1 < p.insertBlack.toNat ∨ 1 < p.bufferSwap.toNat ∨ 1 < p.triggerOutPrevious.toNat) :
    admissionError maxIndex p = some .pvFieldRange := by
  rw [admissionError, if_neg (Nat.not_lt.2 ht), if_neg (Nat.not_lt.2 hi),
    if_neg (not_or.2 ⟨Nat.not_lt.2 hd1, Nat.not_lt.2 hd8⟩), if_neg (Nat.not_lt.2 hl), if_pos hf]

theorem admissionError_inRange (ht : p.triggerType.toNat ≤ 3) (hi : p.patternIndex.toNat ≤ maxIndex)
    (hd1 : 1 ≤ p.bitDepth.toNat) (hd8 : p.bitDepth.toNat ≤ 8) (hl : p.ledSelect.toNat ≤ 7) (hv : p.invertPattern.toNat ≤ 1)
    (hb : p.insertBlack.toNat ≤ 1) (hs : p.bufferSwap.toNat ≤ 1) (ho : p.triggerOutPrevious.toNat ≤ 1) :
    admissionError maxIndex p = none :=
  (admissionError_eq_none_iff maxIndex p).2 ⟨ht, hi, ⟨hd1, hd8⟩, hl, hv, hb, hs, ho⟩

/-- The word an admitted descriptor is stored as, by number: the first entry of an empty store has its buffer swap set (R99). -/
theorem storedWord_admitted_toNat (hmax : maxIndex ≤ 63) (hp : admissionError maxIndex p = none) {n : Nat} (count : BitVec n) :
    (storedWord (admitted (count == 0) p)).toNat = p.triggerType.toNat + p.patternIndex.toNat * 2 ^ 2
      + p.bitDepth.toNat * 2 ^ 8 + p.ledSelect.toNat * 2 ^ 12 + p.invertPattern.toNat * 2 ^ 16 + p.insertBlack.toNat * 2 ^ 17
      + (if count.toNat = 0 then 1 else p.bufferSwap.toNat) * 2 ^ 18 + p.triggerOutPrevious.toNat * 2 ^ 19 := by
  have hfits : fitsWidth (admitted (count == 0) p) = true :=
    fitsWidth_of_admissionError hmax (admissionError_admitted hp _)
  rw [storedWord_toNat hfits, packPattern_toNat hfits, admitted_count_beq_zero]
  split_ifs <;> rfl

end Admission

/-! ### The ends of an operation -/

/-- An operation that raises a precondition violation at once refuses its request (R184, R185). -/
theorem refusedWith_of_raise {i : Instr} {s : State} (c : Cause) (hexec : exec i s = .next (s.raise c []))
    (hc : Cause.status c = .preconditionViolation) : RefusedWith i s (Cause.code c) := by
  obtain ⟨hanswered, hstores, htraffic, hidle⟩ := raise_answered s c []
  rw [hc] at hanswered
  exact ⟨_, hexec, ⟨hanswered, hstores, htraffic⟩, hidle⟩

/-- The end of an operation that edited a store: one OK response, no event, MBOX_STEP kept. -/
theorem StoreEdit.succeed {s u : State} (h : StoreEdit s u) (res : List Byte) :
    Answered s (u.succeed res) (0 :: 0 :: res) ∧ NoTraffic s (u.succeed res) ∧ (u.succeed res).mboxStep = s.mboxStep := by
  obtain ⟨hcfg, hreq, hresp, hmbox, htraffic⟩ := h.frame
  exact ⟨⟨congrArg (· ++ _) hresp, rfl, hcfg, hreq⟩, htraffic, hmbox⟩

/-! ### SEQ_ADD (R102) -/

theorem exec_seqAdd_refused {p : Pattern} {c : Cause} (h : seqCheck p = some c) (s : State) :
    exec (.seqAdd p) s = .next (s.raise c []) := by
  simp only [exec, execSeqAdd, h]

theorem exec_seqAdd_full {p : Pattern} {s : State} (h : seqCheck p = none) (hfull : s.seqCount.toNat = Config.seqCap) :
    exec (.seqAdd p) s = .next (s.raise .pvCapacity []) := by
  simp only [exec, execSeqAdd, h, if_pos hfull]

theorem exec_seqAdd_append {p : Pattern} {s : State} (h : seqCheck p = none) (hroom : s.seqCount.toNat ≠ Config.seqCap) :
    exec (.seqAdd p) s = .next ((s.appendSeq p).succeed [s.seqCount]) := by
  simp only [exec, execSeqAdd, h, if_neg hroom]

/-- Settles O36: the descriptor is admitted and there is room, so the entry is appended at the count. -/
theorem seqAddCompletes : Obligations.SeqAddCompletes := by
  intro s p ht hi hd1 hd8 hl hv hb hs ho hroom
  have hp : seqCheck p = none := admissionError_inRange ht hi hd1 hd8 hl hv hb hs ho
  have hcount : (s.seqCount + 1).toNat = s.seqCount.toNat + 1 := by bv_omega
  obtain ⟨hanswered, htraffic, hmbox⟩ := (StoreEdit.seqAdd p hp hroom.ne).succeed [s.seqCount]
  exact ⟨_, _, exec_seqAdd_append hp hroom.ne, hanswered, Memory.read_write_same _ _ _,
    storedWord_admitted_toNat (by decide) hp s.seqCount, fun i hne => Memory.read_write_other _ _ i _ hne, hcount, rfl, rfl,
    ⟨rfl, rfl⟩, htraffic, hmbox⟩

/-- A check of the admission that fails refuses SEQ_ADD. -/
theorem seqAdd_refusedWith {p : Pattern} (c : Cause) (h : seqCheck p = some c) (hc : Cause.status c = .preconditionViolation)
    (s : State) : RefusedWith (.seqAdd p) s (Cause.code c) :=
  refusedWith_of_raise c (exec_seqAdd_refused h s) hc

/-- Settles O37, check by check. -/
theorem seqAddRefusals : Obligations.SeqAddRefusals := fun s _ =>
  ⟨fun ht => seqAdd_refusedWith .pvFieldRange (admissionError_triggerType ht) rfl s,
    fun ht hi => seqAdd_refusedWith .pvPatternIndex (admissionError_patternIndex ht hi) rfl s,
    fun ht hi hd => seqAdd_refusedWith .pvBitDepth (admissionError_bitDepth ht hi hd) rfl s,
    fun ht hi hd1 hd8 hl => seqAdd_refusedWith .pvLedSelect (admissionError_ledSelect ht hi hd1 hd8 hl) rfl s,
    fun ht hi hd1 hd8 hl hf => seqAdd_refusedWith .pvFieldRange (admissionError_flags ht hi hd1 hd8 hl hf) rfl s,
    fun ht hi hd1 hd8 hl hv hb hs ho hfull =>
      refusedWith_of_raise .pvCapacity (exec_seqAdd_full (admissionError_inRange ht hi hd1 hd8 hl hv hb hs ho) hfull) rfl⟩

/-! ### VX_ADD (R107) -/

section VxAdd

variable {p : Pattern} {exposure period : Word32} {s : State}

theorem exec_vxAdd_refused {c : Cause} (h : vxCheck p = some c) :
    exec (.vxAdd p exposure period) s = .next (s.raise c []) := by
  simp only [exec, execVxAdd, h]

theorem exec_vxAdd_full (h : vxCheck p = none) (hfull : s.vxCount.toNat = Config.vxCap) :
    exec (.vxAdd p exposure period) s = .next (s.raise .pvCapacity []) := by
  simp only [exec, execVxAdd, h, if_pos hfull]

theorem exec_vxAdd_append (h : vxCheck p = none) (hroom : s.vxCount.toNat ≠ Config.vxCap) :
    exec (.vxAdd p exposure period) s = .next ((s.appendVx p exposure period).succeed (le16 s.vxCount.toNat)) := by
  simp only [exec, execVxAdd, h, if_neg hroom]

/-- A check of the admission that fails refuses VX_ADD, whatever the timing. -/
theorem vxAdd_refusedWith (c : Cause) (h : vxCheck p = some c) (hc : Cause.status c = .preconditionViolation) :
    RefusedWith (.vxAdd p exposure period) s (Cause.code c) :=
  refusedWith_of_raise c (exec_vxAdd_refused h) hc

end VxAdd

/-- Settles O43: as O36, with the timing stored as given. -/
theorem vxAddCompletes : Obligations.VxAddCompletes := by
  intro s p exposure period ht hi hd1 hd8 hl hv hb hs ho hroom
  have hp : vxCheck p = none := admissionError_inRange ht hi hd1 hd8 hl hv hb hs ho
  have hcount : (s.vxCount + 1).toNat = s.vxCount.toNat + 1 := by bv_omega
  obtain ⟨hanswered, htraffic, hmbox⟩ :=
    (StoreEdit.vxAdd p exposure period hp hroom.ne).succeed (le16 s.vxCount.toNat)
  exact ⟨_, _, exec_vxAdd_append hp hroom.ne, hanswered, Memory.read_write_same _ _ _, rfl, rfl,
    storedWord_admitted_toNat (by decide) hp s.vxCount, fun i hne => Memory.read_write_other _ _ i _ hne, hcount,
    ⟨rfl, rfl, rfl, rfl⟩, htraffic, hmbox⟩

/-- Settles O44, check by check. -/
theorem vxAddRefusals : Obligations.VxAddRefusals := fun _ _ _ _ =>
  ⟨fun ht => vxAdd_refusedWith .pvFieldRange (admissionError_triggerType ht) rfl,
    fun ht hi => vxAdd_refusedWith .pvPatternIndex (admissionError_patternIndex ht hi) rfl,
    fun ht hi hd => vxAdd_refusedWith .pvBitDepth (admissionError_bitDepth ht hi hd) rfl,
    fun ht hi hd1 hd8 hl => vxAdd_refusedWith .pvLedSelect (admissionError_ledSelect ht hi hd1 hd8 hl) rfl,
    fun ht hi hd1 hd8 hl hf => vxAdd_refusedWith .pvFieldRange (admissionError_flags ht hi hd1 hd8 hl hf) rfl,
    fun ht hi hd1 hd8 hl hv hb hs ho hfull =>
      refusedWith_of_raise .pvCapacity (exec_vxAdd_full (admissionError_inRange ht hi hd1 hd8 hl hv hb hs ho) hfull) rfl⟩

/-! ### SET.PAT_PERIOD (R100, R148) -/

/-- A SET that ends as `Set` of its register does completes, whatever its bytes are (R114). -/
theorem setCompletes_of_exec {i : Instr} {r : Reg} {raw : Params → List Byte} {ok : Params → Prop}
    (hexec : ∀ s : State, ok s.cfg → exec i s = .next (State.finish (regSet r (raw s.cfg) s))) : SetCompletes i r raw ok := by
  intro s x txRest rxRest hp hok hlen hx htx hrx
  have hrun := regSet_goesThrough r (raw s.cfg) hp hlen hx htx hrx
  refine ⟨_, hexec s hok, ?_⟩
  rw [finish_eq, finishWith_ok id hrun]
  exact ⟨exchanged_succeed _ [], rfl, rfl⟩

theorem validTiming_iff (exposure period : Word32) : validTiming exposure period = true ↔
    exposure.toNat ≤ period.toNat ∧ 230 < period.toNat - exposure.toNat := decide_eq_true_iff

theorem exec_setPatPeriod_valid {exposure period : Word32} (h : validTiming exposure period = true) (s : State) :
    exec (.setPatPeriod exposure period) s = .next (State.finish
      (regSet .patPeriod (layoutPack (layoutOf s.cfg .patPeriod) [exposure.toNat, period.toNat]) s)) :=
  congrArg Host.Outcome.next (if_pos h)

theorem exec_setPatPeriod_invalid {exposure period : Word32} (h : ¬ validTiming exposure period = true) (s : State) :
    exec (.setPatPeriod exposure period) s = .next (s.raise .pvPeriod []) :=
  congrArg Host.Outcome.next (if_neg h)

/-- `Pack` of two fields (R115): each is set in turn, from all-zero bytes. -/
theorem layoutPack_two (n : Nat) (f g : BitField) (a b : Nat) :
    layoutPack ⟨some n, [f, g]⟩ [a, b] = leBytes n (fieldWrite g b (fieldWrite f a 0)) := rfl

/-- The default layout of PAT_PERIOD holds the pair as one number: the exposure in the low four bytes, the period above it. -/
theorem layoutPack_patPeriod (exposure period : Word32) :
    layoutPack defaultLayout.patPeriod [exposure.toNat, period.toNat] = le32 exposure.toNat ++ le32 period.toNat := by
  have hexposure : fieldWrite ⟨0, 31, 0⟩ exposure.toNat 0 = exposure.toNat := by
    have h := fieldWrite_above ⟨0, 31, 0⟩ exposure.toNat 0 exposure.isLt (by decide)
    rwa [show fieldOffset ⟨0, 31, 0⟩ = 0 from rfl, Nat.pow_zero, Nat.mul_one, Nat.zero_add] at h
  have hperiod : fieldWrite ⟨4, 31, 0⟩ period.toNat exposure.toNat = exposure.toNat + period.toNat * 2 ^ 32 := by
    have h := fieldWrite_above ⟨4, 31, 0⟩ period.toNat exposure.toNat period.isLt exposure.isLt
    rwa [show fieldOffset ⟨4, 31, 0⟩ = 32 from rfl] at h
  have hbytes : leNat (le32 exposure.toNat ++ le32 period.toNat) = exposure.toNat + period.toNat * 2 ^ 32 := by
    rw [leNat_append, leNat_le32, leNat_le32, le32_length]
    have := exposure.isLt
    have := period.isLt
    omega
  calc layoutPack defaultLayout.patPeriod [exposure.toNat, period.toNat]
      = leBytes 8 (fieldWrite ⟨4, 31, 0⟩ period.toNat (fieldWrite ⟨0, 31, 0⟩ exposure.toNat 0)) :=
        layoutPack_two 8 ⟨0, 31, 0⟩ ⟨4, 31, 0⟩ exposure.toNat period.toNat
    _ = leBytes 8 (leNat (le32 exposure.toNat ++ le32 period.toNat)) := by rw [hexposure, hperiod, hbytes]
    _ = le32 exposure.toNat ++ le32 period.toNat := leBytes_leNat (le32 exposure.toNat ++ le32 period.toNat)

/-- Settles O53: the timing check decides between `Set` of the packed pair and the refusal. -/
theorem setPatPeriod : Obligations.SetPatPeriod := fun exposure period =>
  ⟨fun hvalid => setCompletes_of_exec fun s _ => exec_setPatPeriod_valid ((validTiming_iff _ _).2 hvalid) s,
    layoutPack_patPeriod exposure period,
    fun hinvalid s =>
      refusedWith_of_raise .pvPeriod (exec_setPatPeriod_invalid (mt (validTiming_iff _ _).1 hinvalid) s) rfl⟩

/-! ### PAT_PACK and PAT_UNPACK (R110, R111) -/

theorem exec_patPack_fits {p : Pattern} (h : fitsWidth p = true) (s : State) :
    exec (.patPack p) s = .next (s.succeed (le24 (packPattern p).toNat)) :=
  congrArg Host.Outcome.next (if_pos h)

theorem exec_patPack_unfit {p : Pattern} (h : ¬ fitsWidth p = true) (s : State) :
    exec (.patPack p) s = .next (s.raise .pvFieldRange []) :=
  congrArg Host.Outcome.next (if_neg h)

/-- Settles O34: `FitsWidth` decides. -/
theorem patPackCompletes : Obligations.PatPackCompletes :=
  ⟨fun _ => rfl, fun s p =>
    ⟨fun hfits => ⟨_, exec_patPack_fits ((fitsWidth_iff p).2 hfits) s, succeed_answeredQuietly s _, rfl⟩,
      fun hunfit => refusedWith_of_raise .pvFieldRange (exec_patPack_unfit (mt (fitsWidth_iff p).1 hunfit) s) rfl⟩⟩

/-- Settles O35. -/
theorem patUnpackCompletes : Obligations.PatUnpackCompletes := fun s w =>
  ⟨rfl, _, rfl, rfl, unpackPattern_bytes w ▸ succeed_answeredQuietly s (unpackPattern w).bytes⟩

/-! ### Reading the stores (R104, R105, R108, R109) -/

theorem exec_seqRead_of_le {s : State} {index : Half} (h : s.seqCount.toNat ≤ index.toNat) :
    exec (.seqRead index) s = .next (s.raise .pvIndex []) :=
  congrArg Host.Outcome.next (if_pos h)

theorem exec_vxRead_of_lt {s : State} {index : Half} (h : index.toNat < s.vxCount.toNat) :
    exec (.vxRead index) s = .next (s.succeed (le24 (s.vxTriple index.toNat).word.toNat
      ++ le32 (s.vxTriple index.toNat).exposure.toNat ++ le32 (s.vxTriple index.toNat).period.toNat)) :=
  congrArg Host.Outcome.next (if_neg (Nat.not_le.2 h))

theorem exec_vxRead_of_le {s : State} {index : Half} (h : s.vxCount.toNat ≤ index.toNat) :
    exec (.vxRead index) s = .next (s.raise .pvIndex []) :=
  congrArg Host.Outcome.next (if_pos h)

/-- The triple of an entry that was written. -/
theorem State.vxTriple_of_read {s : State} {i : Nat} {e : VxEntry} (h : Memory.read s.vxEntry i = some e) :
    s.vxTriple i = e := by
  rw [State.vxTriple, h, Option.getD_some]

/-- Settles O38. -/
theorem seqReadCompletes : Obligations.SeqReadCompletes := fun s _ =>
  ⟨rfl, fun hlt => ⟨_, _, exec_seqRead_of_lt hlt, succeed_answeredQuietly s _, rfl,
      fun _ hread => congrArg BitVec.toNat (State.seqWord_of_read hread)⟩,
    fun hle => refusedWith_of_raise .pvIndex (exec_seqRead_of_le hle) rfl⟩

/-- Settles O45. -/
theorem vxReadCompletes : Obligations.VxReadCompletes := fun s _ =>
  ⟨rfl, fun hlt => ⟨_, _, exec_vxRead_of_lt hlt, rfl, succeed_answeredQuietly s _,
      fun _ hread => State.vxTriple_of_read hread⟩,
    fun hle => refusedWith_of_raise .pvIndex (exec_vxRead_of_le hle) rfl⟩

/-- Settles O42. -/
theorem storeStatusCompletes : Obligations.StoreStatusCompletes :=
  ⟨rfl, rfl, fun s => ⟨⟨_, rfl, rfl, succeed_answeredQuietly s _⟩, _, rfl, rfl, succeed_answeredQuietly s _⟩⟩

/-! ### Clearing the stores and setting the timing (R101, R103, R106) -/

/-- Settles O40: each clear edits its own count alone. -/
theorem clearsComplete : Obligations.ClearsComplete := by
  refine ⟨rfl, rfl, fun s => ⟨?_, ?_⟩⟩
  · obtain ⟨hanswered, htraffic, hmbox⟩ := (StoreEdit.seqClear (s := s)).succeed []
    exact ⟨_, rfl, hanswered, rfl, rfl, rfl, rfl, ⟨rfl, rfl⟩, htraffic, hmbox⟩
  · obtain ⟨hanswered, htraffic, hmbox⟩ := (StoreEdit.vxClear (s := s)).succeed []
    exact ⟨_, rfl, hanswered, rfl, rfl, ⟨rfl, rfl, rfl, rfl⟩, htraffic, hmbox⟩

/-- Settles O41: the pair is stored whatever it is. -/
theorem seqSetTimingCompletes : Obligations.SeqSetTimingCompletes := by
  intro s exposure period
  obtain ⟨hanswered, htraffic, hmbox⟩ := (StoreEdit.seqSetTiming (s := s) exposure period).succeed []
  exact ⟨rfl, _, rfl, hanswered, rfl, rfl, rfl, rfl, ⟨rfl, rfl⟩, htraffic, hmbox⟩

end Sys2Proof.Machine

/-! ## The register codec (42_codec.md)

A layout is read bit by bit once: `Pack` sets the bits its fields cover and no others (`testBit_setFields_of_mem`,
`testBit_setFields_of_uncovered`), and `Unpack` reads them (`testBit_fieldRead`), so both round trips compare bits. Where the
fields of a layout rise, as those of every default layout do, the packed register is a sum (`layoutPack_rising`). Every GET and
every SET ends as the generic transaction of R114 does (`exec_getOf`, `exec_setForm`). -/

namespace Sys2Proof.Machine

/-! ### The bits of a register (R115) -/

/-- A field holds bit `i` of the register. -/
def covers (f : BitField) (i : Nat) : Prop := fieldOffset f ≤ i ∧ i < fieldOffset f + fieldWidth f

theorem not_covers_iff {f : BitField} {i : Nat} :
    ¬ covers f i ↔ i < fieldOffset f ∨ fieldOffset f + fieldWidth f ≤ i := by
  rw [covers]
  omega

theorem not_covers_of_fieldsApart {f g : BitField} {i : Nat} (h : fieldsApart f g = true) (hf : covers f i) :
    ¬ covers g i := by
  rw [fieldsApart, decide_eq_true_eq] at h
  rw [covers] at *
  omega

/-- The register as one number: the bits below the field, the field, and the bits above it. -/
theorem fieldWrite_eq (f : BitField) (v n : Nat) :
    fieldWrite f v n = 2 ^ fieldOffset f * (2 ^ fieldWidth f * (n / 2 ^ (fieldOffset f + fieldWidth f)) + v % 2 ^ fieldWidth f)
      + n % 2 ^ fieldOffset f := by
  rw [fieldWrite, Nat.pow_add]
  ring

/-- Setting a field gives it the bits of the value and keeps every other bit. -/
theorem testBit_fieldWrite_of_covers {f : BitField} {i : Nat} (h : covers f i) (v n : Nat) :
    (fieldWrite f v n).testBit i = v.testBit (i - fieldOffset f) := by
  obtain ⟨hlo, hhi⟩ := h
  rw [fieldWrite_eq, Nat.testBit_two_pow_mul_add _ (Nat.mod_lt _ (Nat.two_pow_pos _)), if_neg (Nat.not_lt.2 hlo),
    Nat.testBit_two_pow_mul_add _ (Nat.mod_lt _ (Nat.two_pow_pos _)), if_pos (by omega), Nat.testBit_mod_two_pow,
    decide_eq_true (by omega), Bool.true_and]

theorem testBit_fieldWrite_of_not_covers {f : BitField} {i : Nat} (h : ¬ covers f i) (v n : Nat) :
    (fieldWrite f v n).testBit i = n.testBit i := by
  rw [fieldWrite_eq, Nat.testBit_two_pow_mul_add _ (Nat.mod_lt _ (Nat.two_pow_pos _))]
  rcases not_covers_iff.1 h with hlo | hhi
  · rw [if_pos hlo, Nat.testBit_mod_two_pow, decide_eq_true hlo, Bool.true_and]
  · have hplace : i - fieldOffset f - fieldWidth f + (fieldOffset f + fieldWidth f) = i := by omega
    rw [if_neg (by omega), Nat.testBit_two_pow_mul_add _ (Nat.mod_lt _ (Nat.two_pow_pos _)), if_neg (by omega),
      Nat.testBit_div_two_pow, hplace]

/-- Reading a field gives its bits and no others. -/
theorem testBit_fieldRead (f : BitField) (raw : List Byte) (i : Nat) :
    (fieldRead f raw).testBit i = (decide (i < fieldWidth f) && (leNat raw).testBit (i + fieldOffset f)) := by
  rw [fieldRead, Nat.testBit_mod_two_pow, Nat.testBit_div_two_pow]

/-- The fields of a list set in turn, each to its value, from the register `n`. -/
def setFields (fvs : List (BitField × Nat)) (n : Nat) : Nat := fvs.foldl (fun n fv => fieldWrite fv.1 fv.2 n) n

/-- `Pack` sets the layout's fields from all-zero bytes (R115). -/
theorem layoutPack_eq (l : Layout) (v : List Nat) :
    layoutPack l v = leBytes (l.width.getD 0) (setFields (l.fields.zip v) 0) := rfl

/-- A bit no field covers is kept. -/
theorem testBit_setFields_of_uncovered {fvs : List (BitField × Nat)} {i : Nat} (h : ∀ fv ∈ fvs, ¬ covers fv.1 i) (n : Nat) :
    (setFields fvs n).testBit i = n.testBit i := by
  induction fvs generalizing n with
  | nil => rfl
  | cons fv fvs ih =>
    have hrest := ih (fun gv hg => h gv (List.mem_cons_of_mem fv hg)) (fieldWrite fv.1 fv.2 n)
    exact hrest.trans (testBit_fieldWrite_of_not_covers (h fv List.mem_cons_self) fv.2 n)

/-- A bit a field covers is the field's, whatever is set before and after it. -/
theorem testBit_setFields_of_mem {fvs : List (BitField × Nat)} (hapart : allApart (fvs.map Prod.fst) = true)
    {fv : BitField × Nat} (hmem : fv ∈ fvs) {i : Nat} (hi : covers fv.1 i) (n : Nat) :
    (setFields fvs n).testBit i = fv.2.testBit (i - fieldOffset fv.1) := by
  induction fvs generalizing n with
  | nil => cases hmem
  | cons gv fvs ih =>
    simp only [List.map_cons, allApart, Bool.and_eq_true, List.all_eq_true, List.forall_mem_map] at hapart
    obtain ⟨hhead, htail⟩ := hapart
    rcases List.mem_cons.1 hmem with rfl | hmem
    · exact (testBit_setFields_of_uncovered (fun gv hg => not_covers_of_fieldsApart (hhead gv hg) hi) _).trans
        (testBit_fieldWrite_of_covers hi fv.2 n)
    · exact ih htail hmem _

/-! ### The codec's round trips (R171) -/

/-- The bits of a register of `w` bytes, as `Pack` writes them. -/
theorem testBit_leNat_leBytes (w n i : Nat) : (leNat (leBytes w n)).testBit i = (decide (i < 8 * w) && n.testBit i) := by
  rw [leNat_leBytes, show 256 ^ w = 2 ^ (8 * w) from (Nat.pow_mul 2 8 w).symm, Nat.testBit_mod_two_pow]

/-- A byte string has no bit at or above its width. -/
theorem testBit_leNat_of_le {raw : List Byte} {i : Nat} (h : 8 * raw.length ≤ i) : (leNat raw).testBit i = false := by
  have hlt : leNat raw < 2 ^ (8 * raw.length) := by
    rw [Nat.pow_mul]
    exact leNat_lt raw
  exact Nat.testBit_lt_two_pow (hlt.trans_le (Nat.pow_le_pow_right (by decide) h))

/-- Byte strings of one length are equal when their bits are. -/
theorem leBytes_eq_iff_testBit {raw : List Byte} (n : Nat) :
    leBytes raw.length n = raw ↔ ∀ i < 8 * raw.length, n.testBit i = (leNat raw).testBit i := by
  refine ⟨fun h i hi => ?_, fun h => ?_⟩
  · rw [← congrArg (fun bs => (leNat bs).testBit i) h, testBit_leNat_leBytes, decide_eq_true hi, Bool.true_and]
  · have hnum : leNat (leBytes raw.length n) = leNat raw := by
      refine Nat.eq_of_testBit_eq fun i => ?_
      rw [testBit_leNat_leBytes]
      by_cases hi : i < 8 * raw.length
      · rw [decide_eq_true hi, Bool.true_and, h i hi]
      · rw [decide_eq_false hi, Bool.false_and, testBit_leNat_of_le (Nat.not_lt.1 hi)]
    have hback := leBytes_leNat (leBytes raw.length n)
    rwa [leBytes_length, hnum, leBytes_leNat, eq_comm] at hback

theorem layoutWf_iff (l : Layout) : layoutWf l = true ↔
    (∀ f ∈ l.fields, f.lo ≤ f.hi ∧ 8 * f.byte + f.hi < 8 * l.width.getD 0) ∧ allApart l.fields = true := by
  simp only [layoutWf, Bool.and_eq_true, List.all_eq_true, fieldInside, decide_eq_true_eq]

theorem layoutFits_iff (l : Layout) (v : List Nat) :
    layoutFits l v = true ↔ ∀ fv ∈ l.fields.zip v, fv.2 < 2 ^ fieldWidth fv.1 := by
  simp only [layoutFits, List.all_eq_true, decide_eq_true_eq]

/-- A field inside the register, set to a value that fits, reads back from the packed register. -/
theorem fieldRead_leBytes_setFields {fvs : List (BitField × Nat)} (hapart : allApart (fvs.map Prod.fst) = true)
    {fv : BitField × Nat} (hmem : fv ∈ fvs) (hfits : fv.2 < 2 ^ fieldWidth fv.1) {w : Nat}
    (hinside : fieldOffset fv.1 + fieldWidth fv.1 ≤ 8 * w) : fieldRead fv.1 (leBytes w (setFields fvs 0)) = fv.2 := by
  refine Nat.eq_of_testBit_eq fun i => ?_
  rw [testBit_fieldRead, testBit_leNat_leBytes]
  by_cases hi : i < fieldWidth fv.1
  · rw [decide_eq_true hi, decide_eq_true (by omega), Bool.true_and, Bool.true_and,
      testBit_setFields_of_mem hapart hmem ⟨Nat.le_add_left _ _, by omega⟩, Nat.add_sub_cancel]
  · rw [decide_eq_false hi, Bool.false_and, Nat.testBit_lt_two_pow
      (hfits.trans_le (Nat.pow_le_pow_right (by decide) (Nat.not_lt.1 hi)))]

/-- Unpacking packed values that fit gives them back. -/
theorem layoutUnpack_layoutPack {l : Layout} {v : List Nat} (hwf : layoutWf l = true) (hlen : v.length = l.fields.length)
    (hfits : layoutFits l v = true) : layoutUnpack l (layoutPack l v) = v := by
  obtain ⟨hinside, hapart⟩ := (layoutWf_iff l).1 hwf
  have hfields : (l.fields.zip v).map Prod.fst = l.fields := List.map_fst_zip hlen.ge
  have hvalues : (l.fields.zip v).map Prod.snd = v := List.map_snd_zip hlen.le
  have hread : ∀ fv ∈ l.fields.zip v, fieldRead fv.1 (layoutPack l v) = fv.2 := fun fv hmem => by
    obtain ⟨hrise, hbelow⟩ := hinside fv.1 (List.of_mem_zip hmem).1
    refine fieldRead_leBytes_setFields (by rwa [hfields]) hmem ((layoutFits_iff l v).1 hfits fv hmem) ?_
    rw [fieldOffset, fieldWidth]
    omega
  calc layoutUnpack l (layoutPack l v)
      = (l.fields.zip v).map fun fv => fieldRead fv.1 (layoutPack l v) := by
        rw [layoutUnpack]
        conv_lhs => rw [← hfields]
        rw [List.map_map]
        rfl
    _ = (l.fields.zip v).map Prod.snd := List.map_congr_left hread
    _ = v := hvalues

/-- The fields of a register, each with its own value: what `Pack` of `Unpack` sets. -/
theorem zip_layoutUnpack (l : Layout) (raw : List Byte) :
    l.fields.zip (layoutUnpack l raw) = l.fields.map fun f => (f, fieldRead f raw) := by
  have h := List.zip_map' (f := id) (g := fun f => fieldRead f raw) (l := l.fields)
  rwa [List.map_id] at h

/-- What packing unpacked bytes gives: the bits some field covers are the register's, every other bit is 0. -/
theorem testBit_setFields_unpacked {l : Layout} (hapart : allApart l.fields = true) (raw : List Byte) (i : Nat) :
    ((∃ f ∈ l.fields, covers f i) →
      (setFields (l.fields.zip (layoutUnpack l raw)) 0).testBit i = (leNat raw).testBit i) ∧
    ((∀ f ∈ l.fields, ¬ covers f i) → (setFields (l.fields.zip (layoutUnpack l raw)) 0).testBit i = false) := by
  rw [zip_layoutUnpack]
  refine ⟨fun ⟨f, hmem, hlo, hhi⟩ => ?_, fun hnone => ?_⟩
  · have hfst : (l.fields.map fun f => (f, fieldRead f raw)).map Prod.fst = l.fields := by
      rw [List.map_map]
      exact List.map_id _
    have hplace : i - fieldOffset f < fieldWidth f := by omega
    rw [testBit_setFields_of_mem (by rwa [hfst]) (List.mem_map_of_mem hmem) ⟨hlo, hhi⟩, testBit_fieldRead,
      decide_eq_true hplace, Bool.true_and, Nat.sub_add_cancel hlo]
  · rw [testBit_setFields_of_uncovered (by simpa only [List.forall_mem_map] using hnone), Nat.zero_testBit]

/-- Packing unpacked bytes gives the bytes back exactly when every reserved bit is 0. -/
theorem layoutPack_layoutUnpack_iff {l : Layout} {raw : List Byte} (hwf : layoutWf l = true) (hw : l.width = some raw.length) :
    layoutPack l (layoutUnpack l raw) = raw ↔
      ∀ i < 8 * raw.length, (∀ f ∈ l.fields, ¬ covers f i) → (leNat raw).testBit i = false := by
  obtain ⟨-, hapart⟩ := (layoutWf_iff l).1 hwf
  rw [layoutPack_eq, hw, Option.getD_some, leBytes_eq_iff_testBit]
  refine forall₂_congr fun i hi => ?_
  obtain ⟨hcovered, hreserved⟩ := testBit_setFields_unpacked hapart raw i
  by_cases h : ∃ f ∈ l.fields, covers f i
  · obtain ⟨f, hmem, hf⟩ := h
    exact iff_of_true (hcovered ⟨f, hmem, hf⟩) fun hnone => absurd hf (hnone f hmem)
  · have hnone : ∀ f ∈ l.fields, ¬ covers f i := fun f hmem hf => h ⟨f, hmem, hf⟩
    rw [hreserved hnone, eq_comm]
    exact ⟨fun hbit _ => hbit, fun hbit => hbit hnone⟩

theorem invertCurrent_toNat (c : Byte) : (invertCurrent c).toNat = 255 - c.toNat := by
  rw [invertCurrent, BitVec.toNat_ofNat]
  exact Nat.mod_eq_of_lt (by simp only [Config.ledMax]; omega)

/-- The inverse of a current, subtracted as bytes (R122). -/
theorem invertCurrent_eq (c : Byte) : invertCurrent c = 255 - c := by
  have hmax : (255 : Byte).toNat = 255 := rfl
  apply BitVec.eq_of_toNat_eq
  rw [invertCurrent_toNat, BitVec.toNat_sub, hmax]
  omega

theorem invertCurrent_invertCurrent (c : Byte) : invertCurrent (invertCurrent c) = c := by
  rw [invertCurrent_eq, invertCurrent_eq, sub_sub_cancel]

theorem u32_le32 {x : Nat} (hx : x < 2 ^ 32) : u32 (le32 x) 0 = x := by
  rw [u32, List.drop_zero, List.take_of_length_le (le32_length x).le, leNat_le32]
  exact Nat.mod_eq_of_lt hx

/-- Settles O56. -/
theorem codecRoundTrips : Obligations.CodecRoundTrips := by
  refine ⟨fun l w v hwf _ hlen hfits => layoutUnpack_layoutPack hwf hlen hfits, ?_,
    fun c => ⟨invertCurrent_invertCurrent c, invertCurrent_toNat c⟩, fun x hx => u32_le32 hx⟩
  rintro l w raw hwf hw rfl
  simpa only [not_covers_iff] using layoutPack_layoutUnpack_iff hwf hw

/-! ### Reading a field of one byte and of four (R115, R146, R161) -/

theorem leNat_drop (bs : List Byte) (k : Nat) : leNat (bs.drop k) = leNat bs / 2 ^ (8 * k) := by
  induction k generalizing bs with
  | zero => rw [List.drop_zero, Nat.mul_zero, Nat.pow_zero, Nat.div_one]
  | succ k ih =>
    cases bs with
    | nil => rw [List.drop_nil, leNat, Nat.zero_div]
    | cons b bs =>
      have hb := b.isLt
      have hhead : (b.toNat + 256 * leNat bs) / 2 ^ 8 = leNat bs := by omega
      rw [List.drop_succ_cons, ih, leNat, Nat.mul_succ, Nat.add_comm (8 * k) 8, Nat.pow_add, ← Nat.div_div_eq_div_mul, hhead]

theorem leNat_take (bs : List Byte) (k : Nat) : leNat (bs.take k) = leNat bs % 2 ^ (8 * k) := by
  induction k generalizing bs with
  | zero => rw [List.take_zero, leNat, Nat.mul_zero, Nat.pow_zero, Nat.mod_one]
  | succ k ih =>
    cases bs with
    | nil => rw [List.take_nil, leNat, Nat.zero_mod]
    | cons b bs =>
      have hb := b.isLt
      have hpow : 2 ^ (8 * (k + 1)) = 256 * 2 ^ (8 * k) := by rw [Nat.mul_succ, Nat.add_comm, Nat.pow_add]
      have hlow : (b.toNat + 256 * leNat bs) % 256 = b.toNat := by omega
      have hhead : (b.toNat + 256 * leNat bs) / 256 = leNat bs := by omega
      rw [List.take_succ_cons, leNat, leNat, ih, hpow, Nat.mod_mul, hlow, hhead]

/-- A field of four whole bytes is the 32-bit number at its place. -/
theorem fieldRead_word (b : Nat) (raw : List Byte) : fieldRead ⟨b, 31, 0⟩ raw = u32 raw b := by
  rw [u32, leNat_take, leNat_drop]
  rfl

/-- A field within byte `b` is bits of that byte. -/
theorem fieldRead_byte (b hi lo : Nat) (raw : List Byte) (hrise : lo ≤ hi) (hhi : hi < 8) :
    fieldRead ⟨b, hi, lo⟩ raw = (raw.getD b 0).toNat / 2 ^ lo % 2 ^ (hi + 1 - lo) := by
  have hbyte : (raw.getD b 0).toNat = leNat raw / 2 ^ (8 * b) % 2 ^ 8 := by
    rw [← leNat_drop]
    cases hd : raw.drop b with
    | nil => rw [List.getD_eq_default _ _ (List.drop_eq_nil_iff.1 hd)]; rfl
    | cons x xs =>
      have hx := x.isLt
      have hget : raw.getD b 0 = x := by
        rw [List.getD_eq_getElem?_getD, ← List.head?_drop, hd]
        rfl
      rw [hget, leNat]
      omega
  refine Nat.eq_of_testBit_eq fun i => ?_
  rw [testBit_fieldRead, hbyte, Nat.testBit_mod_two_pow, Nat.testBit_div_two_pow, Nat.testBit_mod_two_pow,
    Nat.testBit_div_two_pow, fieldWidth, fieldOffset]
  by_cases h : i < hi + 1 - lo
  · rw [decide_eq_true h, decide_eq_true (show i + lo < 8 by omega), Bool.true_and, Bool.true_and, Bool.true_and]
    exact congrArg _ (by simp only; omega)
  · rw [decide_eq_false h, Bool.false_and, Bool.false_and]

/-! ### Packing fields that rise (R115) -/

/-- The fields of a list stand one above the other, from bit `k` on. -/
def fieldsRise : Nat → List BitField → Bool
  | _, [] => true
  | k, f :: fs => decide (k ≤ fieldOffset f) && fieldsRise (fieldOffset f + fieldWidth f) fs

/-- The values of fields at their places, summed. -/
def fieldSum : List (BitField × Nat) → Nat
  | [] => 0
  | fv :: fvs => fv.2 * 2 ^ fieldOffset fv.1 + fieldSum fvs

/-- Fields that rise and fit, set above every bit set so far, add up. -/
theorem setFields_rising {fvs : List (BitField × Nat)} {k n : Nat} (hrise : fieldsRise k (fvs.map Prod.fst) = true)
    (hfits : ∀ fv ∈ fvs, fv.2 < 2 ^ fieldWidth fv.1) (hn : n < 2 ^ k) : setFields fvs n = n + fieldSum fvs := by
  induction fvs generalizing k n with
  | nil => rfl
  | cons fv fvs ih =>
    simp only [List.map_cons, fieldsRise, Bool.and_eq_true, decide_eq_true_eq] at hrise
    obtain ⟨hk, hrest⟩ := hrise
    have hv := hfits fv List.mem_cons_self
    have hlow : n < 2 ^ fieldOffset fv.1 := hn.trans_le (Nat.pow_le_pow_right (by decide) hk)
    have hset := fieldWrite_above fv.1 fv.2 n hv hlow
    have hnext : fieldWrite fv.1 fv.2 n < 2 ^ (fieldOffset fv.1 + fieldWidth fv.1) :=
      calc fieldWrite fv.1 fv.2 n = n + fv.2 * 2 ^ fieldOffset fv.1 := hset
        _ < 2 ^ fieldOffset fv.1 + fv.2 * 2 ^ fieldOffset fv.1 := Nat.add_lt_add_right hlow _
        _ = (fv.2 + 1) * 2 ^ fieldOffset fv.1 := by ring
        _ ≤ 2 ^ fieldWidth fv.1 * 2 ^ fieldOffset fv.1 := Nat.mul_le_mul_right _ hv
        _ = 2 ^ (fieldOffset fv.1 + fieldWidth fv.1) := by rw [Nat.pow_add, Nat.mul_comm]
    calc setFields (fv :: fvs) n = setFields fvs (fieldWrite fv.1 fv.2 n) := rfl
      _ = fieldWrite fv.1 fv.2 n + fieldSum fvs :=
        ih hrest (fun gv hg => hfits gv (List.mem_cons_of_mem fv hg)) hnext
      _ = n + fieldSum (fv :: fvs) := by rw [hset, fieldSum, Nat.add_assoc]

/-- `Pack` of values that fit, where the layout's fields rise: each value at its place. -/
theorem layoutPack_rising {l : Layout} {w n : Nat} {v : List Nat} (hw : l.width = some w) (hlen : v.length = l.fields.length)
    (hrise : fieldsRise 0 l.fields = true) (hfits : layoutFits l v = true) (hsum : fieldSum (l.fields.zip v) = n) :
    layoutPack l v = leBytes w n := by
  have hfields : (l.fields.zip v).map Prod.fst = l.fields := List.map_fst_zip hlen.ge
  rw [layoutPack_eq, hw, Option.getD_some, setFields_rising (by rwa [hfields]) ((layoutFits_iff l v).1 hfits) Nat.one_pos,
    Nat.zero_add, hsum]

/-! ### The default layouts (R116 to R169)

What fits each layout with a field check, said once for the refusals of R115 and for packing. -/

/-- The fit of each value in turn. -/
theorem layoutFits_cons (w : Option Nat) (f : BitField) (fs : List BitField) (x : Nat) (xs : List Nat) :
    layoutFits ⟨w, f :: fs⟩ (x :: xs) = true ↔ x < 2 ^ fieldWidth f ∧ layoutFits ⟨w, fs⟩ xs = true := by
  rw [layoutFits, List.zip_cons_cons, List.all_cons, Bool.and_eq_true, decide_eq_true_eq]
  rfl

theorem layoutFits_nil (w : Option Nat) (v : List Nat) : layoutFits ⟨w, []⟩ v = true := rfl

theorem layoutFits_single (w : Option Nat) (f : BitField) (x : Nat) :
    layoutFits ⟨w, [f]⟩ [x] = true ↔ x < 2 ^ fieldWidth f :=
  (layoutFits_cons w f [] x []).trans (and_iff_left (layoutFits_nil w []))

theorem layoutFits_ledEnable (r g b q : Nat) :
    layoutFits defaultLayout.ledEnable [r, g, b, q] = true ↔ r < 2 ∧ g < 2 ∧ b < 2 ∧ q < 2 := by
  simp only [defaultLayout, layoutFits_cons, layoutFits_nil, and_true]
  rfl

theorem layoutFits_inputSource (a w : Nat) : layoutFits defaultLayout.inputSource [a, w] = true ↔ a < 8 ∧ w < 8 := by
  simp only [defaultLayout, layoutFits_cons, layoutFits_nil, and_true]
  rfl

theorem layoutFits_testPattern (v : Nat) : layoutFits defaultLayout.testPattern [v] = true ↔ v < 16 :=
  layoutFits_single _ _ v

theorem layoutFits_displayMode (v : Nat) : layoutFits defaultLayout.displayMode [v] = true ↔ v < 2 :=
  layoutFits_single _ _ v

theorem layoutFits_gamma (a e : Nat) : layoutFits defaultLayout.gamma [a, e] = true ↔ a < 4 ∧ e < 2 := by
  simp only [defaultLayout, layoutFits_cons, layoutFits_nil, and_true]
  rfl

theorem layoutFits_patDataSource (v : Nat) : layoutFits defaultLayout.patDataSource [v] = true ↔ v < 4 :=
  layoutFits_single _ _ v

theorem layoutFits_patSeqStatus (v : Nat) : layoutFits defaultLayout.patSeqStatus [v] = true ↔ v < 4 :=
  layoutFits_single _ _ v

theorem layoutFits_patConfig (n r k m : Nat) :
    layoutFits defaultLayout.patConfig [n, r, k, m] = true ↔ n < 128 ∧ r < 2 ∧ k < 256 ∧ m < 64 := by
  simp only [defaultLayout, layoutFits_cons, layoutFits_nil, and_true]
  rfl

theorem layoutFits_mboxMode (v : Nat) : layoutFits defaultLayout.mboxMode [v] = true ↔ v < 4 :=
  layoutFits_single _ _ v

/-- A register of one byte whose one field starts at bit 0 packs a byte that fits as it is. -/
theorem layoutPack_byte {hi : Nat} {v : Byte} (h : v.toNat < 2 ^ (hi + 1)) :
    layoutPack ⟨some 1, [⟨0, hi, 0⟩]⟩ [v.toNat] = [v] :=
  have hsum : fieldSum [(⟨0, hi, 0⟩, v.toNat)] = leNat [v] := Nat.mul_one v.toNat
  (layoutPack_rising (w := 1) rfl rfl rfl ((layoutFits_single _ _ _).2 h) hsum).trans (leBytes_leNat [v])

theorem layoutPack_ledEnable {r g b q : Byte} (hr : r.toNat ≤ 1) (hg : g.toNat ≤ 1) (hb : b.toNat ≤ 1) (hq : q.toNat ≤ 1) :
    layoutPack defaultLayout.ledEnable [r.toNat, g.toNat, b.toNat, q.toNat]
      = [BitVec.ofNat 8 (r.toNat + 2 * g.toNat + 4 * b.toNat + 8 * q.toNat)] := by
  refine layoutPack_rising (w := 1) rfl rfl rfl ((layoutFits_ledEnable _ _ _ _).2 (by omega)) ?_
  simp only [defaultLayout, List.zip_cons_cons, List.zip_nil_left, fieldSum, fieldOffset]
  omega

theorem layoutPack_inputSource {a w : Byte} (ha : a.toNat ≤ 7) (hw : w.toNat ≤ 7) :
    layoutPack defaultLayout.inputSource [a.toNat, w.toNat] = [BitVec.ofNat 8 (a.toNat + 8 * w.toNat)] := by
  refine layoutPack_rising (w := 1) rfl rfl rfl ((layoutFits_inputSource _ _).2 (by omega)) ?_
  simp only [defaultLayout, List.zip_cons_cons, List.zip_nil_left, fieldSum, fieldOffset]
  omega

theorem layoutPack_gamma {a e : Byte} (ha : a.toNat ≤ 3) (he : e.toNat ≤ 1) :
    layoutPack defaultLayout.gamma [a.toNat, e.toNat] = [BitVec.ofNat 8 (a.toNat + 128 * e.toNat)] := by
  refine layoutPack_rising (w := 1) rfl rfl rfl ((layoutFits_gamma _ _).2 (by omega)) ?_
  simp only [defaultLayout, List.zip_cons_cons, List.zip_nil_left, fieldSum, fieldOffset]
  omega

theorem layoutPack_patConfig {n r k m : Byte} (hn : n.toNat ≤ 127) (hr : r.toNat ≤ 1) (hm : m.toNat ≤ 63) :
    layoutPack defaultLayout.patConfig [n.toNat, r.toNat, k.toNat, m.toNat] = [n, r, k, m] := by
  have hk := k.isLt
  refine (layoutPack_rising (w := 4) rfl rfl rfl ((layoutFits_patConfig _ _ _ _).2 (by omega)) ?_).trans
    (leBytes_leNat [n, r, k, m])
  simp only [defaultLayout, List.zip_cons_cons, List.zip_nil_left, fieldSum, fieldOffset, leNat]
  omega

/-- The 32-bit number at the start of four little-endian bytes. -/
theorem u32_le32_append {x : Nat} (hx : x < 2 ^ 32) (rest : List Byte) : u32 (le32 x ++ rest) 0 = x := by
  rw [u32, List.drop_zero, ← le32_length x, List.take_left, leNat_le32]
  exact Nat.mod_eq_of_lt hx

/-- The 32-bit number past the first four bytes of a string. -/
theorem u32_le32_append_add (x : Nat) (rest : List Byte) (k : Nat) : u32 (le32 x ++ rest) (4 + k) = u32 rest k := by
  rw [u32, ← le32_length x, List.drop_length_add_append, u32, le32_length]

/-- The pair of the PAT_PERIOD register (R147). -/
theorem layoutUnpack_patPeriod (raw : List Byte) : layoutUnpack defaultLayout.patPeriod raw = [u32 raw 0, u32 raw 4] :=
  congrArg₂ (fun a b => [a, b]) (fieldRead_word 0 raw) (fieldRead_word 4 raw)

/-- The four words of the VERSION register (R162). -/
theorem layoutUnpack_version (raw : List Byte) :
    layoutUnpack defaultLayout.version raw = [u32 raw 0, u32 raw 4, u32 raw 8, u32 raw 12] := by
  simp only [layoutUnpack, defaultLayout, List.map_cons, List.map_nil, fieldRead_word]

theorem fieldByte_of_lt {n : Nat} (h : n < 256) : fieldByte n = BitVec.ofNat 8 n := if_pos h

theorem fieldWord_of_lt {n : Nat} (h : n < 2 ^ 32) : fieldWord n = le32 n := if_pos h

/-- The parts of a version word under the default split (R161). -/
theorem versionWord_default (a : Word32) :
    versionWord defaultParams a.toNat = ⟨a.toNat / 2 ^ 24, a.toNat / 2 ^ 16 % 2 ^ 8, a.toNat % 2 ^ 16⟩ := by
  have ha := a.isLt
  have hread : ∀ f, fieldRead f (fieldWord a.toNat) = a.toNat / 2 ^ fieldOffset f % 2 ^ fieldWidth f := fun f => by
    rw [fieldRead, fieldWord_of_lt ha, leNat_le32, Nat.mod_eq_of_lt ha]
  have hmajor : a.toNat / 2 ^ 24 % 2 ^ 8 = a.toNat / 2 ^ 24 := Nat.mod_eq_of_lt (by omega)
  calc versionWord defaultParams a.toNat
      = ⟨a.toNat / 2 ^ 24 % 2 ^ 8, a.toNat / 2 ^ 16 % 2 ^ 8, a.toNat / 2 ^ 0 % 2 ^ 16⟩ := by
        rw [versionWord, hread, hread, hread]
        rfl
    _ = ⟨a.toNat / 2 ^ 24, a.toNat / 2 ^ 16 % 2 ^ 8, a.toNat % 2 ^ 16⟩ := by rw [hmajor, Nat.pow_zero, Nat.div_one]

/-- Settles O55: packing by the sum of rising fields, unpacking by the bytes and words the fields lie in. -/
theorem defaultLayouts : Obligations.DefaultLayouts := by
  refine ⟨by decide, ⟨rfl, rfl⟩, fun v => ⟨layoutPack_byte v.isLt, layoutPack_byte v.isLt, layoutPack_byte v.isLt⟩,
    fun exposure period => ⟨layoutPack_patPeriod exposure period, ?_⟩, fun a b c d => ⟨?_, versionWord_default a⟩,
    fun r g b q => layoutPack_ledEnable, fun a w => layoutPack_inputSource, fun v hv => layoutPack_byte (Nat.lt_succ_of_le hv),
    fun v hv => layoutPack_byte (Nat.lt_succ_of_le hv), fun a e => layoutPack_gamma,
    fun v hv => ⟨layoutPack_byte (Nat.lt_succ_of_le hv), layoutPack_byte (Nat.lt_succ_of_le hv),
      layoutPack_byte (Nat.lt_succ_of_le hv)⟩,
    fun n r k m => layoutPack_patConfig, fun b c d e => ?_⟩
  · rw [layoutUnpack_patPeriod, u32_le32_append exposure.isLt, u32_le32_append_add _ _ 0, u32_le32 period.isLt]
  · rw [layoutUnpack_version, List.append_assoc, List.append_assoc, u32_le32_append a.isLt, u32_le32_append_add _ _ 0,
      u32_le32_append_add _ _ 4, u32_le32_append_add _ _ 8, u32_le32_append b.isLt, u32_le32_append_add _ _ 0,
      u32_le32_append_add _ _ 4, u32_le32_append c.isLt, u32_le32_append_add _ _ 0, u32_le32 d.isLt]
  · have hb := b.isLt
    have hd := d.isLt
    simp (disch := decide) only [layoutUnpack, defaultLayout, List.map_cons, List.map_nil, fieldRead_byte, List.getD_cons_zero,
      List.getD_cons_succ, List.cons.injEq, and_true]
    omega

/-! ### The end of a GET (R114) -/

/-- Every GET ends as `Get` of its register does, with result bytes of its own. -/
theorem exec_getOf {r : Reg} {i : Instr} (h : getOf r = some i) (s : State) :
    ∃ result, exec i s = .next (State.finishWith (regGet r s) result) := by
  cases r with
  | mboxData => cases h
  | powerMode | ledEnable | ledCurrent | inputSource | testPattern | displayMode | gamma | patTriggerMode | patDataSource
  | patSeqStatus | patPeriod | patConfig | mboxMode | mboxOffset | validate | version | firmwareTag | hwStatus | sysStatus
  | mainStatus =>
    cases h
    exact ⟨_, rfl⟩

/-- A GET that ends as `Get` of its register does completes, whatever its result bytes are. -/
theorem getCompletes_of_exec {i : Instr} {r : Reg} {result : Params → List Byte → List Byte}
    (hexec : ∀ s : State, exec i s = .next (State.finishWith (regGet r s) (result s.cfg))) : GetCompletes i r result := by
  intro s x txRest rxRest hp hx htx hrx hlong
  have hrun := regGet_goesThrough r hp hx htx hrx hlong
  refine ⟨_, hexec s, ?_⟩
  rw [finishWith_ok _ hrun]
  exact ⟨exchanged_succeed _ _, rfl, rfl⟩

/-- `Get` raises what its transaction raises. -/
theorem regGet_error {r : Reg} {s u : State} {c : Cause} (h : transact (getMsg s.cfg r) s = (.error c, u)) :
    regGet r s = (.error c, u) := by
  rw [regGet, h]

/-- `Get` of a reply shorter than the register's width. -/
theorem regGet_short {r : Reg} {s u : State} {payload : List Byte} {w : Nat} (hw : (layoutOf s.cfg r).width = some w)
    (hshort : payload.length < w) (h : transact (getMsg s.cfg r) s = (.ok payload, u)) :
    regGet r s = (.error .peShort, u) := by
  simp only [regGet, h, hw, if_pos hshort]

/-! ### The GETs complete -/

/-- The bytes of a register that is as long as its layout says (R123). -/
theorem rawByte_eq_getElem {raw : List Byte} {i : Nat} (h : i < raw.length) : rawByte raw i = raw[i] := by
  rw [rawByte, List.getElem?_eq_getElem h]

/-- Settles O46: each GET's result is its register unpacked. -/
theorem getFieldsComplete : Obligations.GetFieldsComplete := by
  refine ⟨fun n => fieldByte_of_lt, ?_, ?_, ?_, ?_, ?_, ?_, ?_, ?_, ?_, ?_, ?_, ?_, fun n => fieldWord_of_lt, ?_⟩ <;>
    exact getCompletes_of_exec fun _ => rfl

/-- Four bytes at a place are their 32-bit number, written back. -/
theorem fieldWord_u32 {raw : List Byte} {i : Nat} (h : i + 4 ≤ raw.length) :
    fieldWord (u32 raw i) = (raw.drop i).take 4 := by
  have hlen : ((raw.drop i).take 4).length = 4 := by
    rw [List.length_take, List.length_drop]
    omega
  have hlt : u32 raw i < 2 ^ 32 := by
    have := leNat_lt ((raw.drop i).take 4)
    rwa [hlen] at this
  have hback := leBytes_leNat ((raw.drop i).take 4)
  rw [hlen] at hback
  exact (fieldWord_of_lt hlt).trans hback

/-- Under the default layout the version words are the register's 16 bytes (R162). -/
theorem version_words_bytes {raw : List Byte} (h : raw.length = 16) :
    (layoutUnpack defaultLayout.version raw).flatMap fieldWord = raw := by
  have hlast : (raw.drop 12).take 4 = raw.drop 12 := List.take_of_length_le (by rw [List.length_drop]; omega)
  calc (layoutUnpack defaultLayout.version raw).flatMap fieldWord
      = (raw.drop 0).take 4 ++ ((raw.drop 4).take 4 ++ ((raw.drop 8).take 4 ++ (raw.drop 12).take 4)) := by
        rw [layoutUnpack_version, ← fieldWord_u32 (by omega), ← fieldWord_u32 (by omega), ← fieldWord_u32 (by omega),
          ← fieldWord_u32 (by omega)]
        simp only [List.flatMap_cons, List.flatMap_nil, List.append_nil]
    _ = raw.drop 0 := by
        rw [hlast, List.drop_take_append_drop raw 8 4, List.drop_take_append_drop raw 4 4, List.drop_take_append_drop raw 0 4]

/-- Under the default layouts a status is its byte (R165, R167, R169). -/
theorem status_byte (b : Byte) : (layoutUnpack ⟨some 1, [⟨0, 7, 0⟩]⟩ [b]).map fieldByte = [b] := by
  have hread : layoutUnpack ⟨some 1, [⟨0, 7, 0⟩]⟩ [b] = [b.toNat] := by
    have hb := b.isLt
    rw [layoutUnpack, List.map_cons, List.map_nil, fieldRead_byte 0 7 0 [b] (by decide) (by decide), List.getD_cons_zero]
    exact congrArg (· :: []) (by omega)
  rw [hread, List.map_cons, List.map_nil, fieldByte_of_lt b.isLt, BitVec.ofNat_toNat, BitVec.setWidth_eq]

/-- Settles O47. -/
theorem getRawComplete : Obligations.GetRawComplete := by
  refine ⟨fun n => fieldByte_of_lt, fun n => fieldWord_of_lt, fun raw => version_words_bytes,
    fun b => ⟨status_byte b, status_byte b, status_byte b⟩, ?_, ?_, ?_, ?_, ?_⟩ <;>
    exact getCompletes_of_exec fun _ => rfl

/-- The validity bit of a validation result (R158). -/
theorem boolByte_validationIsValid (v : List Nat) :
    boolByte (validationIsValid v) = if ∀ x ∈ v.take 5, x = 0 then 1 else 0 := by
  simp only [boolByte, validationIsValid, List.all_eq_true, beq_iff_eq]

/-- The readiness bit of a validation result (R158). -/
theorem boolByte_validationIsReady (v : List Nat) :
    boolByte (validationIsReady v) = if v.getD 5 0 = 0 then 1 else 0 := by
  simp only [boolByte, validationIsReady, beq_iff_eq]

/-- Settles O48: the derived bytes are those of R122 and R158. -/
theorem getDerivedComplete : Obligations.GetDerivedComplete := by
  refine ⟨fun raw i h => rawByte_eq_getElem h, fun n => fieldByte_of_lt, ?_, ?_⟩
  · simp only [← invertCurrent_eq]
    exact getCompletes_of_exec fun _ => rfl
  · simp only [← boolByte_validationIsValid, ← boolByte_validationIsReady]
    exact getCompletes_of_exec fun _ => rfl

/-- Settles O49: the run is `Get`'s of a whole transaction, refused at its last check. -/
theorem shortReplyRefused : Obligations.ShortReplyRefused := by
  intro r i hget s x txRest rxRest w hp hx htx hrx hw hshort
  obtain ⟨result, hexec⟩ := exec_getOf hget s
  rw [← envEncode_getMsg] at hx ⊢
  have htransact := transact_goesThrough (getMsg s.cfg r) s x txRest rxRest hp rfl
    (by simp only [getMsg, le16_length, Config.maxPayload]; decide) hx htx hrx
  exact ⟨_, hexec, finishWith_error_ended result (regGet_traffic r s) (regGet_short hw hshort htransact)⟩

/-! ### The end of a SET (R114, R115) -/

/-- Every SET whose operands pass its check ends as `Set` of its register's bytes does. -/
theorem exec_setForm {i : Instr} {f : SetForm} (h : setForm i = some f) {s : State} (hok : f.ok s.cfg = true) :
    exec i s = .next (State.finish (regSet f.reg (f.raw s.cfg) s)) := by
  cases i with
  | setLedEnable | setInputSource | setTestPattern | setDisplayMode | setGamma | setPatDataSource | setPatSeqStatus
  | setPatConfig | setMboxMode =>
    cases h
    exact congrArg (fun run => Host.Outcome.next (State.finish run)) (checkedSet_fits _ _ s hok)
  | setPowerMode | setPatTriggerMode | setMboxOffset | setValidate =>
    cases h
    rfl
  | setLedCurrent r g b =>
    cases h
    simp only [← invertCurrent_eq]
    rfl
  | setPatPeriod exposure period =>
    cases h
    exact exec_setPatPeriod_valid hok s
  | _ => cases h

/-- A SET completes where its operands pass its check. -/
theorem setCompletes_of_setForm {i : Instr} {f : SetForm} (h : setForm i = some f) {ok : Params → Prop}
    (hok : ∀ cfg, ok cfg → f.ok cfg = true) : SetCompletes i f.reg f.raw ok :=
  setCompletes_of_exec fun _ hcfg => exec_setForm h (hok _ hcfg)

theorem setCompletes_checked {i : Instr} {r : Reg} {v : List Nat} (h : setForm i = some (.checked r v)) :
    SetCompletes i r (fun cfg => layoutPack (layoutOf cfg r) v) (fun cfg => layoutFits (layoutOf cfg r) v = true) :=
  setCompletes_of_setForm h fun _ => id

theorem setCompletes_unchecked {i : Instr} {r : Reg} {v : List Nat} (h : setForm i = some (.unchecked r v)) :
    SetCompletes i r (fun cfg => layoutPack (layoutOf cfg r) v) (fun _ => True) :=
  setCompletes_of_setForm h fun _ _ => rfl

/-- Settles O51: `Fits` of the layout decides. -/
theorem setCheckedComplete : Obligations.SetCheckedComplete :=
  ⟨fun _ _ _ _ => setCompletes_checked rfl, fun _ _ => setCompletes_checked rfl, fun _ => setCompletes_checked rfl,
    fun _ => setCompletes_checked rfl, fun _ _ => setCompletes_checked rfl, fun _ => setCompletes_checked rfl,
    fun _ => setCompletes_checked rfl, fun _ _ _ _ => setCompletes_checked rfl, fun _ => setCompletes_checked rfl⟩

/-- Settles O52: nothing is checked. -/
theorem setUncheckedComplete : Obligations.SetUncheckedComplete :=
  ⟨fun _ => setCompletes_unchecked rfl, fun r g b => setCompletes_of_setForm (i := .setLedCurrent r g b) rfl fun _ _ => rfl,
    fun _ => setCompletes_unchecked rfl, fun _ => setCompletes_unchecked rfl,
    setCompletes_of_setForm (i := .setValidate) rfl fun _ _ => rfl, rfl⟩

/-! ### Operands that do not fit (R115) -/

/-- A SET with a field check, of operands that do not all fit, is refused before any event. -/
theorem refusedWith_of_checkedSet {i : Instr} {r : Reg} {v : List Byte} {s : State}
    (hexec : exec i s = .next (State.finish (checkedSet r v s)))
    (hunfit : layoutFits (layoutOf s.cfg r) (fieldValues v) = false) : RefusedWith i s 7 := by
  rw [checkedSet_unfit r v s hunfit] at hexec
  exact refusedWith_of_raise .pvFieldRange hexec rfl

/-- The same under the default layouts, by the limits of the default layout (notes/assumptions/4.md). -/
theorem refusedWith_of_checkedSet_default {i : Instr} {r : Reg} {v : List Byte} {s : State} (hcfg : s.cfg.layout = defaultLayout)
    (hexec : exec i s = .next (State.finish (checkedSet r v s)))
    (hunfit : ¬ layoutFits (defaultLayout.get r) (fieldValues v) = true) : RefusedWith i s 7 :=
  refusedWith_of_checkedSet hexec (by rwa [layoutOf, hcfg, ← Bool.not_eq_true])

/-- Settles O54: under the default layouts each limit is `Fits` of its layout. -/
theorem setFieldRangeRefused : Obligations.SetFieldRangeRefused :=
  ⟨fun _ => ⟨fun _ _ _ _ hunfit => refusedWith_of_checkedSet rfl hunfit, fun _ _ hunfit => refusedWith_of_checkedSet rfl hunfit,
      fun _ hunfit => refusedWith_of_checkedSet rfl hunfit, fun _ hunfit => refusedWith_of_checkedSet rfl hunfit,
      fun _ _ hunfit => refusedWith_of_checkedSet rfl hunfit, fun _ hunfit => refusedWith_of_checkedSet rfl hunfit,
      fun _ hunfit => refusedWith_of_checkedSet rfl hunfit, fun _ _ _ _ hunfit => refusedWith_of_checkedSet rfl hunfit,
      fun _ hunfit => refusedWith_of_checkedSet rfl hunfit⟩,
    fun _ hcfg =>
    ⟨fun r g b q _ => refusedWith_of_checkedSet_default hcfg rfl
        ((layoutFits_ledEnable r.toNat g.toNat b.toNat q.toNat).not.2 (by omega)),
      fun a w _ => refusedWith_of_checkedSet_default hcfg rfl
        ((layoutFits_inputSource a.toNat w.toNat).not.2 (by omega)),
      fun v _ => refusedWith_of_checkedSet_default hcfg rfl ((layoutFits_testPattern v.toNat).not.2 (by omega)),
      fun v _ => refusedWith_of_checkedSet_default hcfg rfl ((layoutFits_displayMode v.toNat).not.2 (by omega)),
      fun a e _ => refusedWith_of_checkedSet_default hcfg rfl ((layoutFits_gamma a.toNat e.toNat).not.2 (by omega)),
      fun v _ => refusedWith_of_checkedSet_default hcfg rfl ((layoutFits_patDataSource v.toNat).not.2 (by omega)),
      fun v _ => refusedWith_of_checkedSet_default hcfg rfl ((layoutFits_patSeqStatus v.toNat).not.2 (by omega)),
      fun n r k m _ => refusedWith_of_checkedSet_default hcfg rfl
        ((layoutFits_patConfig n.toNat r.toNat k.toNat m.toNat).not.2 (by omega)),
      fun v _ => refusedWith_of_checkedSet_default hcfg rfl ((layoutFits_mboxMode v.toNat).not.2 (by omega))⟩⟩

/-! ### A transaction that fails (R114, R186) -/

/-- `Set` raises what its transaction raises. -/
theorem regSet_error {r : Reg} {raw : List Byte} {s u : State} {c : Cause}
    (h : transact (setMsg s.cfg r raw) s = (.error c, u)) : regSet r raw s = (.error c, u) := by
  rw [regSet, h]

/-- Settles O50: `Get` and `Set` raise what their transaction raises, and every way it fails is an attempt. -/
theorem getFailsAsTransact : Obligations.GetFailsAsTransact := by
  refine ⟨fun r i hget s u c h => ?_, fun i f hset s u c hok h => ?_, fun r i hget s c tx txRest rx rxRest events hp h htx hrx => ?_,
    fun i f hset s c tx txRest rx rxRest events hp hok hlen h htx hrx => ?_⟩
  · obtain ⟨result, hexec⟩ := exec_getOf hget s
    exact ⟨_, hexec, finishWith_error_ended result (regGet_traffic r s) (regGet_error h)⟩
  · refine ⟨_, exec_setForm hset hok, ?_⟩
    rw [finish_eq]
    exact finishWith_error_ended id (regSet_traffic f.reg _ s) (regSet_error h)
  · obtain ⟨result, hexec⟩ := exec_getOf hget s
    obtain ⟨b, hrun⟩ := regGet_fails r hp h htx hrx
    exact ⟨_, hexec, finishWith_error_ended result (regGet_traffic r s) hrun⟩
  · obtain ⟨b, hrun⟩ := regSet_attempt f.reg (f.raw s.cfg) hp hlen h htx hrx
    refine ⟨_, exec_setForm hset hok, ?_⟩
    rw [finish_eq]
    exact finishWith_error_ended id (regSet_traffic f.reg _ s) hrun

end Sys2Proof.Machine

/-! ## The mailbox sequencer (43_mailbox.md)

A row of R177's table fixes the whole upload (`uploadSteps_of_row`), and every state has a row (`exists_uploadRow`). The adapter's
answers then choose the row: `UploadAt.attempt` follows them from step to step, and each clause of the statements is one row
reached in this way (`exec_lutUpload_of_row_at`). -/

namespace Sys2Proof.Machine

/-! ### One step of an upload (R172 to R176) -/

section Steps

variable {s u v : State} {r : Except Cause (List Byte)}

/-- `Set` gives what its transaction gives, its result empty where it goes through. -/
theorem regSet_of_transact {reg : Reg} {raw : List Byte} (h : transact (setMsg s.cfg reg raw) s = (r, v)) :
    regSet reg raw s = (r.map fun _ => [], v) := by
  rw [regSet, h]
  cases r <;> rfl

/-- Step 1 gives what its message's transaction gives. -/
theorem openMailbox_of_transact (hu : UploadTraffic s u)
    (h : transact (setMsg s.cfg .mboxMode (openBytes s.cfg)) { u with mboxStep := .open } = (r, v)) :
    openMailbox { u with mboxStep := .open } = (r.map fun _ => [], v) := by
  rw [← hu.cfg] at h
  exact regSet_of_transact h

/-- Step 2 gives what its message's transaction gives. -/
theorem zeroOffset_of_transact (hu : UploadTraffic s u)
    (h : transact (setMsg s.cfg .mboxOffset (offsetBytes s.cfg)) { u with mboxStep := .offset } = (r, v)) :
    zeroOffset { u with mboxStep := .offset } = (r.map fun _ => [], v) := by
  rw [← hu.cfg] at h
  exact regSet_of_transact h

/-- The LUT bytes depend on the pattern sequence store alone. -/
theorem lutPayload_of_seqKept (h : SeqKept s u) : lutPayload u = lutPayload s := by
  obtain ⟨hentry, hcount, -, -⟩ := h
  simp only [lutPayload, State.seqWord, hentry, hcount]

/-- Step 3 sends the store as it was before the upload. -/
theorem sendLut_of_transact (hu : UploadTraffic s u)
    (h : transact (setMsg s.cfg .mboxData (lutPayload s)) { u with mboxStep := .data } = (r, v)) :
    sendLut { u with mboxStep := .data } = (r, v) := by
  rwa [← hu.cfg, ← lutPayload_of_seqKept hu.stores.1] at h

/-- Step 4 gives what its message's transaction gives. -/
theorem closeMailbox_of_transact (hu : UploadTraffic s u)
    (h : transact (setMsg s.cfg .mboxMode (closeBytes s.cfg)) { u with mboxStep := .close } = (r, v)) :
    closeMailbox { u with mboxStep := .close } = (r.map fun _ => [], v) := by
  rw [← hu.cfg] at h
  exact regSet_of_transact h

/-- A transaction in its place of an upload is transport and a move of MBOX_STEP. -/
theorem UploadTraffic.transact {m : Message} {pos : MboxStep} (hu : UploadTraffic s u)
    (h : Machine.transact m { u with mboxStep := pos } = (r, v)) : UploadTraffic s v := by
  have htraffic := transact_traffic m { u with mboxStep := pos }
  rw [h] at htraffic
  exact (hu.trans (UploadTraffic.move u pos)).trans htraffic.upload

/-- The step mask looks at step 4's outcome alone, not at its payload. -/
theorem closing_map (f : List Byte → List Byte) (a b : Byte) : closing (r.map f) a b = closing r a b := by
  cases r <;> rfl

end Steps

/-! ### The rows of R177 -/

section Rows

variable {s v : State} {first : Option Cause} {mask : Byte}

/-- Step 4 ends an upload, by its transaction. -/
theorem uploadClose_of_transact {r : Except Cause (List Byte)} {u : State} (hu : UploadTraffic s u)
    (h : transact (setMsg s.cfg .mboxMode (closeBytes s.cfg)) { u with mboxStep := .close } = (r, v)) :
    uploadClose ⟨mask, first, u⟩
      = ⟨closing r (mask ||| maskBit 3 ||| maskBit 7) (mask ||| maskBit 3), first, { v with mboxStep := .idle }⟩ := by
  rw [uploadClose_eq (closeMailbox_of_transact hu h), closing_map]

/-- A row of R177's table is the whole upload: its mask, its first failure and the state it leaves. -/
theorem uploadSteps_of_row (h : UploadRow s first mask v) : uploadSteps s = ⟨mask, first, { v with mboxStep := .idle }⟩ := by
  have to0 := UploadTraffic.refl s
  cases h with
  | openFails h1 h4 =>
    rw [uploadSteps, startUpload, uploadStep_error (openMailbox_of_transact to0 h1), uploadStep_skipped, uploadStep_skipped,
      uploadClose_of_transact (to0.transact h1) h4]
    rfl
  | offsetFails h1 h2 h4 =>
    have to1 := to0.transact h1
    rw [uploadSteps, startUpload, uploadStep_ok (openMailbox_of_transact to0 h1),
      uploadStep_error (zeroOffset_of_transact to1 h2), uploadStep_skipped, uploadClose_of_transact (to1.transact h2) h4]
    rfl
  | dataFails h1 h2 h3 h4 =>
    have to1 := to0.transact h1
    have to2 := to1.transact h2
    rw [uploadSteps, startUpload, uploadStep_ok (openMailbox_of_transact to0 h1),
      uploadStep_ok (zeroOffset_of_transact to1 h2), uploadStep_error (sendLut_of_transact to2 h3),
      uploadClose_of_transact (to2.transact h3) h4]
    rfl
  | succeeds h1 h2 h3 h4 =>
    have to1 := to0.transact h1
    have to2 := to1.transact h2
    rw [uploadSteps, startUpload, uploadStep_ok (openMailbox_of_transact to0 h1),
      uploadStep_ok (zeroOffset_of_transact to1 h2), uploadStep_ok (sendLut_of_transact to2 h3),
      uploadClose_of_transact (to2.transact h3) h4]
    rfl

/-- Whatever the adapter answers, the upload is one of the rows. -/
theorem exists_uploadRow (s : State) : ∃ first mask v, UploadRow s first mask v := by
  rcases h1 : transact (setMsg s.cfg .mboxMode (openBytes s.cfg)) { s with mboxStep := .open } with ⟨c | p1, u1⟩
  · exact ⟨_, _, _, .openFails h1 rfl⟩
  rcases h2 : transact (setMsg s.cfg .mboxOffset (offsetBytes s.cfg)) { u1 with mboxStep := .offset } with ⟨c | p2, u2⟩
  · exact ⟨_, _, _, .offsetFails h1 h2 rfl⟩
  rcases h3 : transact (setMsg s.cfg .mboxData (lutPayload s)) { u2 with mboxStep := .data } with ⟨c | p3, u3⟩
  · exact ⟨_, _, _, .dataFails h1 h2 h3 rfl⟩
  · exact ⟨_, _, _, .succeeds h1 h2 h3 rfl⟩

/-- The masks of an upload without and with a failure of steps 1 to 3. -/
theorem UploadRow.mask_mem (h : UploadRow s first mask v) :
    (first = none ∧ mask ∈ [0xFF, 0x7F]) ∨ ∃ c, first = some c ∧ mask ∈ [0xBF, 0x3F, 0x9B, 0x1B, 0x89, 0x09] := by
  cases h with
  | @succeeds _ _ _ r4 =>
    refine .inl ⟨rfl, ?_⟩
    cases r4 <;> simp [closing]
  | @dataFails _ _ c r4 | @offsetFails _ c r4 | @openFails c r4 =>
    refine .inr ⟨c, rfl, ?_⟩
    cases r4 <;> simp [closing]

/-- LUT_UPLOAD of a store with entries runs its steps. -/
theorem exec_lutUpload_of_entries (hcount : s.seqCount ≠ 0) : exec .lutUpload s = .next (finishUpload (uploadSteps s)) :=
  congrArg Host.Outcome.next (if_neg hcount)

/-- The end of an upload after its steps were transport alone (R172). -/
theorem finishUpload_answered {w : Upload} (h : UploadTraffic s w.st) (hidle : w.st.mboxStep = .idle) :
    Answered s (finishUpload w) (uploadResponse w.first w.mask) ∧ StoresKept s (finishUpload w) ∧
      (finishUpload w).mboxStep = .idle ∧ (finishUpload w).trace = w.st.trace ∧
      (finishUpload w).txAnswers = w.st.txAnswers ∧ (finishUpload w).rxAnswers = w.st.rxAnswers := by
  obtain ⟨mask, first, st⟩ := w
  cases first with
  | none => exact ⟨⟨congrArg (· ++ _) h.responses, rfl, h.cfg, h.requests⟩, h.stores, hidle, rfl, rfl, rfl⟩
  | some c => exact ⟨⟨congrArg (· ++ _) h.responses, rfl, h.cfg, h.requests⟩, h.stores, rfl, rfl, rfl, rfl⟩

/-- LUT_UPLOAD of a row: the row's response, and the trace and the adapter's answers step 4 left. -/
theorem exec_lutUpload_of_row (hcount : s.seqCount ≠ 0) (h : UploadRow s first mask v) :
    ∃ t, exec .lutUpload s = .next t ∧ Answered s t (uploadResponse first mask) ∧ StoresKept s t ∧ t.mboxStep = .idle ∧
      t.trace = v.trace ∧ t.txAnswers = v.txAnswers ∧ t.rxAnswers = v.rxAnswers := by
  obtain ⟨htraffic, hidle⟩ := uploadSteps_traffic s
  have hend := finishUpload_answered htraffic hidle
  refine ⟨_, exec_lutUpload_of_entries hcount, ?_⟩
  rw [uploadSteps_of_row h] at hend ⊢
  exact hend

/-- The response of an upload: LAST_STATUS, LAST_CAUSE and the step mask. -/
theorem Answered.uploadResponse_eq {t : State} (h : Answered s t (uploadResponse first mask)) :
    uploadResponse first mask = [t.lastStatus, t.lastCause, mask] := by
  obtain ⟨-, hcodes, -, -⟩ := h
  cases first <;> exact congrArg (· ++ [mask]) hcodes

/-- An upload with no failure of steps 1 to 3 answers OK (R172). -/
theorem Answered.uploadResponse_none {t : State} (h : Answered s t (uploadResponse none mask)) :
    t.lastStatus = 0 ∧ t.lastCause = 0 := by
  have heq := h.uploadResponse_eq
  simp only [uploadResponse, List.cons.injEq] at heq
  obtain ⟨hstatus, hcause, -⟩ := heq
  exact ⟨hstatus.symm, hcause.symm⟩

/-- An upload with a failure of steps 1 to 3 does not answer OK (R172). -/
theorem Answered.uploadResponse_some {t : State} {c : Cause} (h : Answered s t (uploadResponse (some c) mask)) :
    t.lastStatus ≠ 0 ∧ t.lastCause ≠ 0 := by
  have heq := h.uploadResponse_eq
  simp only [uploadResponse, failureCodes, List.cons_append, List.cons.injEq] at heq
  obtain ⟨hstatus, hcause, -⟩ := heq
  obtain ⟨-, hstatus0, hcause0, -⟩ := cause_codes c
  exact ⟨hstatus ▸ hstatus0, hcause ▸ hcause0⟩

end Rows

/-- Settles O58: every state has a row, and each row is one upload. -/
theorem stepMasks : Obligations.StepMasks := by
  refine ⟨fun s hempty => refusedWith_of_raise .pvEmptyLut (congrArg Host.Outcome.next (if_pos hempty)) rfl,
    fun s v first mask hcount hrow => exec_lutUpload_of_row hcount hrow, fun s t hcount hexec => ?_⟩
  obtain ⟨first, mask, v, hrow⟩ := exists_uploadRow s
  obtain ⟨t', hexec', hanswered, hstores, hidle, -⟩ := exec_lutUpload_of_row hcount hrow
  obtain rfl : t' = t := Host.Outcome.next.inj (hexec'.symm.trans hexec)
  refine ⟨mask, hanswered.uploadResponse_eq ▸ hanswered, hstores, hidle, ?_⟩
  obtain ⟨rfl, hmask⟩ | ⟨c, rfl, hmask⟩ := hrow.mask_mem
  · obtain ⟨hstatus, hcause⟩ := hanswered.uploadResponse_none
    exact .inl ⟨hstatus, hcause, hmask⟩
  · obtain ⟨hstatus, hcause⟩ := hanswered.uploadResponse_some
    exact .inr ⟨hstatus, hcause, hmask⟩

/-! ### The rows by the adapter's answers (R83 to R86) -/

/-- A point of the upload of `s`: the events so far, and the adapter's answers still to come. -/
structure UploadAt (s u : State) (events : List Event) (txRest : List TxAnswer) (rxRest : List RxAnswer) : Prop where
  cfg : u.cfg = s.cfg
  trace : u.trace = s.trace ++ events
  txAnswers : u.txAnswers = txRest
  rxAnswers : u.rxAnswers = rxRest

section Attempts

variable {s u : State} {events events' : List Event} {tx txRest : List TxAnswer} {rx rxRest : List RxAnswer}

/-- An upload starts with no events. -/
theorem UploadAt.start (htx : s.txAnswers = txRest) (hrx : s.rxAnswers = rxRest) : UploadAt s s [] txRest rxRest :=
  ⟨rfl, (List.append_nil _).symm, htx, hrx⟩

/-- A step's transaction goes as its attempt says, and takes the upload to the next point. -/
theorem UploadAt.attempt {reg : Reg} {raw : List Byte} {r : Except Cause (List Byte)} (pos : MboxStep)
    (hu : UploadAt s u events (tx ++ txRest) (rx ++ rxRest)) (hp : 4 ≤ s.cfg.p) (hlen : 2 + raw.length ≤ 512)
    (h : Attempt s.cfg (setStream s.cfg reg raw) r tx rx events') :
    ∃ v, transact (setMsg s.cfg reg raw) { u with mboxStep := pos } = (r, v) ∧
      UploadAt s v (events ++ events') txRest rxRest := by
  obtain ⟨hcfg, htrace, htx, hrx⟩ := hu
  rw [← hcfg] at hp h ⊢
  rw [← envEncode_setMsg] at h
  obtain ⟨b, hrun⟩ := transact_attempt _ { u with mboxStep := pos } r tx txRest rx rxRest events' hp rfl
    (by simp only [setMsg, List.length_append, le16_length, Config.maxPayload]; omega) h htx hrx
  exact ⟨_, hrun, hcfg, by simp only [htrace, List.append_assoc], rfl, rfl⟩

/-- LUT_UPLOAD of a row whose step 4 ends at a point of the upload. -/
theorem exec_lutUpload_of_row_at {first : Option Cause} {mask : Byte} (hcount : s.seqCount ≠ 0)
    (hrow : UploadRow s first mask u) (hu : UploadAt s u events txRest rxRest) :
    ∃ t, exec .lutUpload s = .next t ∧ EndedIdle s t (uploadResponse first mask) events txRest rxRest := by
  obtain ⟨t, hexec, hanswered, hstores, hidle, htrace, htx, hrx⟩ := exec_lutUpload_of_row hcount hrow
  exact ⟨t, hexec, hanswered, hstores, hidle, htrace.trans hu.trace, htx.trans hu.txAnswers, hrx.trans hu.rxAnswers⟩

/-- Three bytes an entry (R175). -/
theorem lutPayload_length (s : State) : (lutPayload s).length = 3 * s.seqCount.toNat := by
  simp [lutPayload, List.length_flatMap, Nat.mul_comm]

/-- A full store fits one message (R175). -/
theorem lutPayload_fits (hcount : s.seqCount.toNat ≤ 128) : 2 + (lutPayload s).length ≤ 512 := by
  rw [lutPayload_length]
  omega

end Attempts

/-- Settles O57: the row where steps 1 to 3 succeed. -/
theorem lutUploadCompletes : Obligations.LutUploadCompletes := by
  intro s x1 x2 x3 r4 tx4 txRest rx4 rxRest events4 hp hcount hcap ⟨hopen, hoffset, hclose⟩ hx1 hx2 hx3 hattempt4 htx hrx
  simp only [List.map_append, List.append_assoc] at htx hrx
  obtain ⟨u1, h1, at1⟩ := (UploadAt.start htx hrx).attempt .open hp hopen (.through x1 hx1)
  obtain ⟨u2, h2, at2⟩ := at1.attempt .offset hp hoffset (.through x2 hx2)
  obtain ⟨u3, h3, at3⟩ := at2.attempt .data hp (lutPayload_fits hcap) (.through x3 hx3)
  obtain ⟨u4, h4, at4⟩ := at3.attempt .close hp hclose hattempt4
  exact exec_lutUpload_of_row_at hcount (.succeeds h1 h2 h3 h4) at4

/-- Settles O59: the three rows with a failed step. -/
theorem mailboxClosedAfterFailure : Obligations.MailboxClosedAfterFailure := by
  intro s c r4 tx tx4 txRest rx rx4 rxRest events events4 hp hcount hcap ⟨hopen, hoffset, hclose⟩ hattempt4
  refine ⟨fun hfails htx hrx => ?_, fun x1 hx1 hfails htx hrx => ?_, fun x1 x2 hx1 hx2 hfails htx hrx => ?_⟩ <;>
    simp only [List.map_append, List.append_assoc] at htx hrx
  · obtain ⟨u1, h1, at1⟩ := (UploadAt.start htx hrx).attempt .open hp hopen hfails
    obtain ⟨u4, h4, at4⟩ := at1.attempt .close hp hclose hattempt4
    exact exec_lutUpload_of_row_at hcount (.openFails h1 h4) at4
  · obtain ⟨u1, h1, at1⟩ := (UploadAt.start htx hrx).attempt .open hp hopen (.through x1 hx1)
    obtain ⟨u2, h2, at2⟩ := at1.attempt .offset hp hoffset hfails
    obtain ⟨u4, h4, at4⟩ := at2.attempt .close hp hclose hattempt4
    exact exec_lutUpload_of_row_at hcount (.offsetFails h1 h2 h4) at4
  · obtain ⟨u1, h1, at1⟩ := (UploadAt.start htx hrx).attempt .open hp hopen (.through x1 hx1)
    obtain ⟨u2, h2, at2⟩ := at1.attempt .offset hp hoffset (.through x2 hx2)
    obtain ⟨u3, h3, at3⟩ := at2.attempt .data hp (lutPayload_fits hcap) hfails
    obtain ⟨u4, h4, at4⟩ := at3.attempt .close hp hclose hattempt4
    exact exec_lutUpload_of_row_at hcount (.dataFails h1 h2 h3 h4) at4

end Sys2Proof.Machine

/-! ## Exceptions (60_exceptions.md)

What a failed request leaves is one structure (`FailedWith`). Every failure ends in `State.raise` after transport alone
(`FailedWith.raise`), or is read off what every operation does at its end (`TransportEnded`, `StoreOpEnd`); LUT_UPLOAD alone adds
a result byte, its step mask. -/

namespace Sys2Proof.Machine

/-! ### What a failure leaves (R184) -/

/-- From `s` to `t` a request failed with `result` after its two codes: the stores are as they were, MBOX_STEP is idle and every
event issued stays in the trace (R184). -/
structure FailedWith (s t : State) (result : List Byte) : Prop where
  stores : StoresKept s t
  idle : t.mboxStep = .idle
  trace : ∃ events, t.trace = s.trace ++ events
  response : t.responses = s.responses ++ [t.lastStatus :: t.lastCause :: result]

/-- An exception raised after transport alone. -/
theorem FailedWith.raise {s u : State} (h : UploadTraffic s u) (c : Cause) (result : List Byte) :
    FailedWith s (u.raise c result) result :=
  ⟨h.stores, rfl, h.trace, congrArg (· ++ _) h.responses⟩

/-- An operation of one transaction fails with its codes alone. -/
theorem TransportEnded.failedWith {s t : State} (h : TransportEnded s t) (hfail : t.lastStatus ≠ 0) : FailedWith s t [] :=
  ⟨h.stores, h.failedIdle hfail, h.ended.trace, h.failed hfail⟩

/-- An operation on the stores or the packer fails with its codes alone: it edits a store only where it succeeds. -/
theorem StoreOpEnd.failedWith {s t : State} (h : StoreOpEnd s t) (hfail : t.lastStatus ≠ 0) : FailedWith s t [] := by
  cases h with
  | raised c => exact .raise (.refl s) c []
  | answered result => exact absurd (State.succeed_lastStatus s result) hfail
  | edited _ result => exact absurd (State.succeed_lastStatus _ result) hfail

/-- LUT_UPLOAD fails before its steps, or with its step mask after them (R172, R177). -/
theorem exec_lutUpload_failedWith {s t : State} (hexec : exec .lutUpload s = .next t) (hfail : t.lastStatus ≠ 0) :
    ∃ result, FailedWith s t result ∧ result.length ≤ 1 := by
  by_cases hempty : s.seqCount = 0
  · obtain rfl : s.raise .pvEmptyLut [] = t := (if_pos hempty).symm.trans (Host.Outcome.next.inj hexec)
    exact ⟨[], .raise (.refl s) _ _, Nat.zero_le 1⟩
  · obtain rfl := Host.Outcome.next.inj ((exec_lutUpload_of_entries hempty).symm.trans hexec)
    obtain ⟨htraffic, -⟩ := uploadSteps_traffic s
    generalize uploadSteps s = w at hfail htraffic ⊢
    obtain ⟨mask, _ | c, u⟩ := w
    · exact absurd (State.succeed_lastStatus u [mask]) hfail
    · exact ⟨[mask], .raise htraffic c [mask], Nat.le_refl 1⟩

/-- Every other operation fails with its codes alone (R17). -/
theorem exec_failedWith {i : Instr} {s t : State} (hup : i ≠ .lutUpload) (hexec : exec i s = .next t)
    (hfail : t.lastStatus ≠ 0) : FailedWith s t [] := by
  cases htr : transportOp i with
  | true =>
    obtain ⟨u, hu, hend⟩ := exec_transportEnded i s htr hup
    obtain rfl : u = t := Host.Outcome.next.inj (hu.symm.trans hexec)
    exact hend.failedWith hfail
  | false =>
    obtain ⟨u, hu, hend⟩ := exec_storeOpEnd i s htr
    obtain rfl : u = t := Host.Outcome.next.inj (hu.symm.trans hexec)
    exact hend.failedWith hfail

/-! ### The codes (R181, R182, R197) -/

/-- No pair of R182's table has the status RETRY_EXHAUSTED. -/
theorem legalCodes_status_ne_retryExhausted {st ca : Byte} (h : (st, ca) ∈ legalCodes) : st ≠ 4 := by
  have hall : (legalCodes.all fun c => c.1 != 4) = true := by decide
  exact bne_iff_ne.1 (List.all_eq_true.1 hall (st, ca) h)

/-! ### The obligations -/

/-- Settles O6, by the equation of a step with no request presented. -/
theorem stepWaitsForRequest : Obligations.StepWaitsForRequest :=
  fun _ hreq => step_of_requests_nil hreq

/-- Settles O17: the table is the two functions' own values, and `cause_codes` has the rest. -/
theorem causeCodes : Obligations.CauseCodes := by
  refine ⟨fun c => ?_, rfl⟩
  obtain ⟨-, hstatus, hcause, -⟩ := cause_codes c
  exact ⟨hstatus, hcause⟩

/-- Settles O13: every request ends with a pair of R182's table, and its response begins with that pair's status. -/
theorem retryExhaustedNeverRaised : Obligations.RetryExhaustedNeverRaised := by
  intro s t r rest hreq hstep
  obtain ⟨u, hu, hend⟩ := step_requestEnd hreq
  obtain rfl : u = t := Host.Outcome.next.inj (hu.symm.trans hstep)
  obtain ⟨result, hresponse⟩ := hend.ended.response
  have hstatus := legalCodes_status_ne_retryExhausted hend.ended.codes
  exact ⟨hstatus, _, hresponse, fun h => hstatus (Option.some.inj h)⟩

/-- Settles O14: LUT_UPLOAD apart, a failure answers with its codes alone. -/
theorem failureKeepsStores : Obligations.FailureKeepsStores := by
  intro i s t hexec hfail
  by_cases hup : i = .lutUpload
  · subst hup
    obtain ⟨result, h, hlen⟩ := exec_lutUpload_failedWith hexec hfail
    exact ⟨h.stores, h.idle, h.trace, result, h.response, fun hne => absurd rfl hne, hlen⟩
  · have h := exec_failedWith hup hexec hfail
    exact ⟨h.stores, h.idle, h.trace, [], h.response, fun _ => rfl, Nat.zero_le 1⟩

end Sys2Proof.Machine

/-! ## Reset and hazards (70_reset_and_hazards.md)

What a request may touch is read off the ways it ends: no end writes the parameters (R203), and the two halves of the operations
each leave alone what the other half works on (R204). -/

namespace Sys2Proof.Machine

/-- An operation on the stores or the packer ends without transport: its answer issues no event, and neither does an edit of a
store. -/
theorem StoreOpEnd.noTraffic {s t : State} (h : StoreOpEnd s t) : NoTraffic s t := by
  cases h with
  | raised c =>
    obtain ⟨-, -, hquiet, -⟩ := raise_answered s c []
    exact hquiet
  | answered result =>
    obtain ⟨-, -, hquiet, -⟩ := succeed_answered s result
    exact hquiet
  | edited hedit result =>
    obtain ⟨-, hquiet, -⟩ := hedit.succeed result
    exact hquiet

/-- The operations that issue transport events write neither store: LUT_UPLOAD only reads the one it sends. -/
theorem exec_transportOp_storesKept {i : Instr} (s : State) (htr : transportOp i = true) :
    ∃ t, exec i s = .next t ∧ StoresKept s t := by
  by_cases hup : i = .lutUpload
  · subst hup
    obtain ⟨t, ht, -, hstores, -⟩ := exec_lutUpload_ended s
    exact ⟨t, ht, hstores⟩
  · obtain ⟨t, ht, hend⟩ := exec_transportEnded i s htr hup
    exact ⟨t, ht, hend.stores⟩

/-! ### The obligations -/

/-- Settles O12: a step waits, or takes a request, and no request's end writes the parameters. -/
theorem parametersFixed : Obligations.ParametersFixed := by
  intro s t hstep
  cases hreq : s.requests with
  | nil =>
    obtain rfl : s = t := Host.Outcome.next.inj ((step_of_requests_nil hreq).symm.trans hstep)
    rfl
  | cons r rest =>
    obtain ⟨u, hu, hend⟩ := step_requestEnd hreq
    obtain rfl : u = t := Host.Outcome.next.inj (hu.symm.trans hstep)
    exact hend.ended.cfg

/-- Settles O15: each half of the operations by the way it ends. -/
theorem storesAndTransportApart : Obligations.StoresAndTransportApart := by
  intro i s t hexec
  constructor
  · intro htr
    obtain ⟨u, hu, hend⟩ := exec_storeOpEnd i s htr
    obtain rfl : u = t := Host.Outcome.next.inj (hu.symm.trans hexec)
    exact hend.noTraffic
  · intro htr
    obtain ⟨u, hu, hstores⟩ := exec_transportOp_storesKept s htr
    obtain rfl : u = t := Host.Outcome.next.inj (hu.symm.trans hexec)
    exact hstores

end Sys2Proof.Machine
